-- ==== Sys2Proof/Word.lean ====
section
/-! DEFINITION. The words of the block: only what the spec treats as bits (spec/00_scope.md section 4). -/

namespace Sys2Proof

/-- An input byte, `b`, of `BYTE_WIDTH` 8 (30_encoding.md R57). -/
abbrev Byte := BitVec 8

/-- A code of the decoder state register, of `STATE_WIDTH` 3 (10_state.md R21). All eight codes exist, the unnamed
6 and 7 too, and
software sees a code as a payload of `UnexpectedByte`. -/
abbrev StateCode := BitVec 3

/-- A packed two-byte field, of `PENDING_WIDTH` 14, the width of `pending` (10_state.md R25, 30_encoding.md R67). -/
abbrev Field := BitVec 14

/-- A count of end markers, of `COUNTER_WIDTH` 64 (10_state.md R29). -/
abbrev Count := BitVec 64

/-- An operation word (30_encoding.md R60). -/
abbrev OpWord := BitVec 11

end Sys2Proof
end

