-- ==== Sys2Proof/Syntax.lean ====
section
/-! DEFINITION. The operations of the block, one constructor a row of spec/opcode_table.json, and the events they
emit (spec/30_encoding.md R61 and R70). -/

namespace Sys2Proof

/-- An operation with the operand fields of its operation word (30_encoding.md R60, R61; spec/opcode_table.json).
START and END carry the state code they arrive in, because their rows have the field `s`; DEFAULT carries the one
bit `s` that tells code 6 from code 7. -/
inductive Instr where
  /-- START, `sss10000000` (40_markers.md R86). -/
  | start (s : StateCode)
  /-- END, `sss01000000` (40_markers.md R87). -/
  | endFrame (s : StateCode)
  /-- IDLE_DATA, `000bbbbbbbb` (42_unexpected.md R93). -/
  | idleData (b : Byte)
  /-- ADDR_HI, `001bbbbbbbb` (41_field_packer.md R88). -/
  | addrHi (b : Byte)
  /-- ADDR_LO, `010bbbbbbbb` (41_field_packer.md R89). -/
  | addrLo (b : Byte)
  /-- INSTANCE, `011bbbbbbbb` (41_field_packer.md R90). -/
  | instanceOp (b : Byte)
  /-- DATA_HI, `100bbbbbbbb` (41_field_packer.md R91). -/
  | dataHi (b : Byte)
  /-- DATA_LO, `101bbbbbbbb` (41_field_packer.md R92). -/
  | dataLo (b : Byte)
  /-- DEFAULT, `11sbbbbbbbb` (42_unexpected.md R94). -/
  | defaultOp (s : BitVec 1) (b : Byte)
deriving DecidableEq, Repr

/-- The nine operation names (30_encoding.md R61). -/
inductive OpKind where
  | START
  | END
  | IDLE_DATA
  | ADDR_HI
  | ADDR_LO
  | INSTANCE
  | DATA_HI
  | DATA_LO
  | DEFAULT
deriving DecidableEq, Repr

/-- The name of an operation. -/
def Instr.kind : Instr → OpKind
  | .start _ => .START
  | .endFrame _ => .END
  | .idleData _ => .IDLE_DATA
  | .addrHi _ => .ADDR_HI
  | .addrLo _ => .ADDR_LO
  | .instanceOp _ => .INSTANCE
  | .dataHi _ => .DATA_HI
  | .dataLo _ => .DATA_LO
  | .defaultOp _ _ => .DEFAULT

/-- An event of the block, `DecodedEvent` (30_encoding.md R70). -/
inductive Event where
  /-- `FrameStarted`, no payload (R73). -/
  | frameStarted
  /-- `AddressReady(value)`, a packed address. -/
  | addressReady (value : Field)
  /-- `InstanceReady(value)`, a raw byte (R69). -/
  | instanceReady (value : Byte)
  /-- `DataReady(value)`, a packed data value. -/
  | dataReady (value : Field)
  /-- `FrameEnded(totalFrames)`, the counter after the increment (R71). -/
  | frameEnded (totalFrames : Count)
  /-- `UnexpectedByte(state, value)` (R72). -/
  | unexpectedByte (state : StateCode) (value : Byte)
deriving DecidableEq, Repr

end Sys2Proof
end

