-- ==== Sys2Proof/Decode.lean ====
section
/-! DEFINITION. Markers and state codes, the decoder from operation words to operations, the encoder back, and the
opcode table as rows of mask and match (spec/30_encoding.md R58 to R64, spec/opcode_table.json). -/

namespace Sys2Proof

/-- The operation word `OW[10:0] = {state[2:0], b[7:0]}` (30_encoding.md R60). -/
def opWord (c : StateCode) (b : Byte) : OpWord := c ++ b

/-- Field `s` of an operation word, bits 10 to 8 (30_encoding.md R60). -/
def OpWord.code (w : OpWord) : StateCode := w.extractLsb' 8 3

/-- Field `b` of an operation word, bits 7 to 0 (30_encoding.md R60). -/
def OpWord.byte (w : OpWord) : Byte := w.extractLsb' 0 8

/-- `START_MARKER` (30_encoding.md R58). UNVERIFIED: the literal is unaudited (93_implementation_defined.md I6,
log 8). -/
def startMarker : Byte := 0x80#8

/-- `END_MARKER` (30_encoding.md R58). UNVERIFIED as `startMarker` is (log 8). -/
def endMarker : Byte := 0x40#8

/-- A data byte: any byte other than the two markers, by equality of all 8 bits (30_encoding.md R58, R59,
decision D13). -/
def isData (b : Byte) : Bool := b != startMarker && b != endMarker

/-- `Idle` (10_state.md R21). -/
def codeIdle : StateCode := 0#3
/-- `ExpectAddressHigh` (10_state.md R21, decision D1, log 7). -/
def codeExpectAddressHigh : StateCode := 1#3
/-- `ExpectAddressLow` (10_state.md R21, decision D1, log 7). -/
def codeExpectAddressLow : StateCode := 2#3
/-- `ExpectInstance` (10_state.md R21, decision D1, log 7). -/
def codeExpectInstance : StateCode := 3#3
/-- `ExpectDataHigh` (10_state.md R21, decision D1, log 7). -/
def codeExpectDataHigh : StateCode := 4#3
/-- `ExpectDataLow` (10_state.md R21, decision D1, log 7). -/
def codeExpectDataLow : StateCode := 5#3

/-- Decode of the operation word `{c, b}`: the first row of 30_encoding.md R61 whose condition holds. -/
def decodeAt (c : StateCode) (b : Byte) : Instr :=
  if b = startMarker then .start c
  else if b = endMarker then .endFrame c
  else if c = codeIdle then .idleData b
  else if c = codeExpectAddressHigh then .addrHi b
  else if c = codeExpectAddressLow then .addrLo b
  else if c = codeExpectInstance then .instanceOp b
  else if c = codeExpectDataHigh then .dataHi b
  else if c = codeExpectDataLow then .dataLo b
  else .defaultOp (c.extractLsb' 0 1) b

/-- The decoder: total on operation words (30_encoding.md R64). -/
def decode (w : OpWord) : Instr := decodeAt w.code w.byte

/-- Why a word is no operation word. -/
inductive DecodeError where
  /-- A bit above bit 10 is set: an operation word has 11 bits (30_encoding.md R60; log 13). Safe. -/
  | widerThanOperationWord
deriving DecidableEq, Repr

/-- The decoder on a word given as a number: the operation of its 11 bits, or a rejection by name. -/
def decodeNat (w : Nat) : Except DecodeError Instr :=
  if w < 2048 then .ok (decode (BitVec.ofNat 11 w)) else .error .widerThanOperationWord

/-- What the decoder reads from the `nbits` bits `w`, numbered as spec/opcode_table.json numbers them; every bit
above `nbits` is 0. An operation word is not stored anywhere, so no byte order enters. -/
def decodeTableWord (nbits w : Nat) : Option Instr :=
  match decodeNat (w % 2 ^ nbits) with
  | .ok i => some i
  | .error _ => none

/-- The encoder, written from the patterns of spec/opcode_table.json. -/
def encode : Instr → OpWord
  | .start s => s ++ startMarker
  | .endFrame s => s ++ endMarker
  | .idleData b => 0b000#3 ++ b
  | .addrHi b => 0b001#3 ++ b
  | .addrLo b => 0b010#3 ++ b
  | .instanceOp b => 0b011#3 ++ b
  | .dataHi b => 0b100#3 ++ b
  | .dataLo b => 0b101#3 ++ b
  | .defaultOp s b => 0b11#2 ++ s ++ b

/-- A row of spec/opcode_table.json: the words `w` with `w AND mask = pattern`. -/
structure OpcodeRow where
  kind : OpKind
  pattern : OpWord
  mask : OpWord
deriving DecidableEq, Repr

/-- Whether a word lies under a row's pattern. -/
def OpcodeRow.covers (r : OpcodeRow) (w : OpWord) : Bool := w &&& r.mask == r.pattern

/-- spec/opcode_table.json as rows, in ascending order of priority. -/
def opcodeTable : List OpcodeRow :=
  [⟨.START, 0x080#11, 0x0FF#11⟩,
   ⟨.END, 0x040#11, 0x0FF#11⟩,
   ⟨.IDLE_DATA, 0x000#11, 0x700#11⟩,
   ⟨.ADDR_HI, 0x100#11, 0x700#11⟩,
   ⟨.ADDR_LO, 0x200#11, 0x700#11⟩,
   ⟨.INSTANCE, 0x300#11, 0x700#11⟩,
   ⟨.DATA_HI, 0x400#11, 0x700#11⟩,
   ⟨.DATA_LO, 0x500#11, 0x700#11⟩,
   ⟨.DEFAULT, 0x600#11, 0x600#11⟩]

/-- The operation the table selects for a word: the first row that covers it (30_encoding.md R61). -/
def tableKind (w : OpWord) : Option OpKind := (opcodeTable.find? (·.covers w)).map (·.kind)

/-- Every operation word, in ascending order. -/
def allOpWords : List OpWord := (List.range (2048)).map (BitVec.ofNat 11)

/-- How many of the 2048 operation words select an operation (30_encoding.md R64). -/
def wordCount (k : OpKind) : Nat := (allOpWords.filter fun w => (decode w).kind == k).length

end Sys2Proof
end

