-- ==== Sys2Proof/Machine/State.lean ====
section
/-! DEFINITION. The state of the block as plain data: its three registers (spec/10_state.md), its output of the
cycle last performed and the input cycles the host drives next (spec/30_encoding.md section 5), and the reasons a
step can stop.

The block has no memory, no program counter, no flags, no control registers and no mode (20_memory.md R42,
10_state.md R35 to R38, 60_exceptions.md R104), so State has none. -/

namespace Sys2Proof.Machine

/-- What one producer drives on the byte input in a cycle (30_encoding.md R74). -/
structure Producer where
  /-- `in_valid`: `in_byte` holds a byte to feed in this cycle. -/
  inValid : Bool
  /-- `in_byte`: the byte. -/
  inByte : Byte
deriving DecidableEq, Repr

/-- What the host drives on the input ports in one cycle of `clk` (30_encoding.md R74). The spec allows exactly one
producer (70_reset_and_hazards.md R120); the list lets a host that breaks this duty be written down and refused. What
the list means when it has other than one entry is the model's choice (log 3). -/
structure InputCycle where
  /-- `rst`: synchronous reset, active high (70_reset_and_hazards.md R113). -/
  rst : Bool
  /-- The producers of this cycle, each with its `in_valid` and `in_byte`. -/
  producers : List Producer
deriving DecidableEq, Repr

/-- The machine. The first three fields are the registers of the block (10_state.md R34: there is no other). -/
structure State where
  /-- `state`, the decoder state register (10_state.md R20, R21). -/
  state : StateCode
  /-- `pending`, the field accumulator (10_state.md R25). -/
  pending : Field
  /-- `counter`, the frame counter (10_state.md R29). -/
  counter : Count
  /-- The event on the output ports in the cycle last performed, `none` when they show no event
  (30_encoding.md R75 to R78, log 2). -/
  event : Option Event
  /-- The input cycles to come, oldest first; after the last one `in_valid` stays 0 (30_encoding.md R80, log 1). -/
  inputs : List InputCycle
deriving DecidableEq, Repr

/-- Why a run can stop with a fault. No step of the block raises one: "the decoder never throws/aborts"
(60_exceptions.md R95). -/
inductive Fault where
  /-- Raised by the CONSUMER's reading of the ports (`OutPorts.read` in Machine/Ports.lean) when `ev_kind` is the
  reserved code 7, as 93_implementation_defined.md I10 asks; never by a step, since the block never drives it
  (30_encoding.md R76). Safe. -/
  | reservedEventKind
deriving DecidableEq, Repr

/-- Why a step can be refused. -/
inductive Refusal where
  /-- Raised by the dispatch for an instruction that has no meaning yet. No arm uses it. Safe. -/
  | notModelled (mnemonic : String)
  /-- Raised by `fetch` (Machine/Fetch.lean) in a cycle in which two or more producers feed a byte: "A model should
  treat concurrent feeding as refused, not give it a meaning" (70_reset_and_hazards.md R120,
  93_implementation_defined.md I7, log 3). Safe. -/
  | concurrentFeed
deriving DecidableEq, Repr

/-- The machine right after reset: `state = 0`, `pending = 0`, `counter = 0` (10_state.md R39, R40, R41;
70_reset_and_hazards.md R113), no event (R114), and no input cycle listed yet (log 1). -/
def State.reset : State where
  state := codeIdle
  pending := 0#14
  counter := 0#64
  event := none
  inputs := []

end Sys2Proof.Machine
end

