-- ==== Sys2Proof/Machine/Operands.lean ====
section
/-! DEFINITION. The arithmetic of the operations: the field packer (spec/30_encoding.md section 3) and the counter's
increment. These are all the operand computations of the block; it computes no flag (spec/10_state.md R35), so the
package has no file of flag computations. -/

namespace Sys2Proof.Machine

/-- `FIELD_SHIFT` (30_encoding.md R66). UNVERIFIED: the literal is unaudited (93_implementation_defined.md I6,
log 8). -/
def fieldShift : Nat := 6

/-- `zext_14(b)`, a byte at the width of a field (00_scope.md section 4). -/
def zextField (b : Byte) : Field := b.setWidth 14

/-- What a high byte loads into `pending`: `zext_14(b) << 6`, with no masking (30_encoding.md R66). -/
def packHigh (b : Byte) : Field := zextField b <<< fieldShift

/-- The field value a low byte completes: `pending | zext_14(b)`, a bitwise OR of the whole byte
(30_encoding.md R66, R68). -/
def packLow (pending : Field) (b : Byte) : Field := pending ||| zextField b

/-- The counter after one more end marker, modulo 2^64 (10_state.md R30, R31, decision D3, log 5). -/
def nextCount (n : Count) : Count := n + 1#64

end Sys2Proof.Machine
end

