-- ==== Sys2Proof/Machine/Ops.lean ====
section
/-! DEFINITION. The named operations over State: the one place where each register, the output event and the input
cycles are written. There is no exception entry or return beside them, because the block has none
(spec/60_exceptions.md R102, R103). -/

namespace Sys2Proof.Machine

/-- `state <- c`. -/
def State.enter (s : State) (c : StateCode) : State := { s with state := c }

/-- `pending <- v`. -/
def State.setPending (s : State) (v : Field) : State := { s with pending := v }

/-- `pending <- 0`, the value the spec gives the cleared accumulator (10_state.md R27, decision D4, log 6). -/
def State.clearPending (s : State) : State := s.setPending 0#14

/-- `counter <- n`. -/
def State.setCounter (s : State) (n : Count) : State := { s with counter := n }

/-- `emit e`: the event of this step (00_scope.md section 4). -/
def State.emit (s : State) (e : Event) : State := { s with event := some e }

/-- A step that executes no `emit` produces no event (00_scope.md section 4). -/
def State.silent (s : State) : State := { s with event := none }

/-- The input cycles that remain after this one. -/
def State.setInputs (s : State) (cs : List InputCycle) : State := { s with inputs := cs }

/-- The rising edge of `clk` with `rst = 1`: the initial register values, and no event
(70_reset_and_hazards.md R113, R114). The host's later input cycles are its own and stay. -/
def State.resetRegisters (s : State) : State :=
  { s with
    state := State.reset.state
    pending := State.reset.pending
    counter := State.reset.counter
    event := none }

/-- The bytes fed in a cycle: one for each producer with `in_valid = 1`. DESIGN CHOICE (log 3): the spec allows exactly
one producer (70_reset_and_hazards.md R120, 20_memory.md R53) and says nothing of a cycle that lists several of which at
most one feeds, or lists none; only the producers that feed count, so such a cycle is an ordinary fed or idle one. -/
def InputCycle.offers (c : InputCycle) : List Byte :=
  c.producers.filterMap fun p => if p.inValid then some p.inByte else none

/-- A cycle of the one producer the spec asks for, with a byte: `rst = 0`, `in_valid = 1`, `in_byte = b`. -/
def InputCycle.feed (b : Byte) : InputCycle := ⟨false, [⟨true, b⟩]⟩

/-- A cycle with `rst = 0` and `in_valid = 0`; the value on `in_byte` then means nothing. -/
def InputCycle.idle : InputCycle := ⟨false, [⟨false, 0#8⟩]⟩

/-- A cycle with `rst = 1` and `in_valid = 0`. -/
def InputCycle.reset : InputCycle := ⟨true, [⟨false, 0#8⟩]⟩

end Sys2Proof.Machine
end

