-- ==== Sys2Proof/Machine/FieldPacker.lean ====
section
/-! DEFINITION. The field operations ADDR_HI, ADDR_LO, INSTANCE, DATA_HI and DATA_LO (spec/41_field_packer.md). -/

namespace Sys2Proof.Machine

/-- The high byte of a field: `pending` is assigned, not combined, no event, and the state goes on to `next`
(41_field_packer.md R88 and R91). -/
def State.loadHighByte (m : State) (b : Byte) (next : StateCode) : State :=
  ((m.setPending (packHigh b)).enter next).silent

/-- ADDR_HI (41_field_packer.md R88). -/
def execAddrHi (b : Byte) (m : State) : Host.Outcome State Fault Refusal :=
  .next (m.loadHighByte b codeExpectAddressLow)

/-- ADDR_LO (41_field_packer.md R89): the packed address is reported and `pending` cleared. -/
def execAddrLo (b : Byte) (m : State) : Host.Outcome State Fault Refusal :=
  .next ((m.clearPending.enter codeExpectInstance).emit (.addressReady (packLow m.pending b)))

/-- INSTANCE (41_field_packer.md R90): the raw byte is reported; `pending` is unchanged. -/
def execInstanceOp (b : Byte) (m : State) : Host.Outcome State Fault Refusal :=
  .next ((m.enter codeExpectDataHigh).emit (.instanceReady b))

/-- DATA_HI (41_field_packer.md R91). -/
def execDataHi (b : Byte) (m : State) : Host.Outcome State Fault Refusal :=
  .next (m.loadHighByte b codeExpectDataLow)

/-- DATA_LO (41_field_packer.md R92): the packed data value is reported, `pending` cleared, and the next state is
`ExpectAddressHigh`, not `Idle` (90_conflicts.md C4). -/
def execDataLo (b : Byte) (m : State) : Host.Outcome State Fault Refusal :=
  .next ((m.clearPending.enter codeExpectAddressHigh).emit (.dataReady (packLow m.pending b)))

end Sys2Proof.Machine
end

