-- ==== Sys2Proof/Machine/Markers.lean ====
section
/-! DEFINITION. The marker operations START and END (spec/40_markers.md). Their operand `s` is the state code they
arrive in; no effect depends on it ("checked before state dispatch, regardless of current state"). -/

namespace Sys2Proof.Machine

/-- START (40_markers.md R86): the event, `ExpectAddressHigh`, and the partial field discarded. -/
def execStart (_s : StateCode) (m : State) : Host.Outcome State Fault Refusal :=
  .next ((m.enter codeExpectAddressHigh).clearPending.emit .frameStarted)

/-- END (40_markers.md R87): the counter goes up by one, the event carries the updated count, and the block is
`Idle` with the partial field discarded. -/
def execEndFrame (_s : StateCode) (m : State) : Host.Outcome State Fault Refusal :=
  let c := nextCount m.counter
  .next (((m.setCounter c).enter codeIdle).clearPending.emit (.frameEnded c))

end Sys2Proof.Machine
end

