-- ==== Sys2Proof/Machine/Unexpected.lean ====
section
/-! DEFINITION. The unexpected-byte operations IDLE_DATA and DEFAULT (spec/42_unexpected.md). Neither is an error
(spec/60_exceptions.md R96), and neither changes a register. -/

namespace Sys2Proof.Machine

/-- `IDLE_REPORTS`: a data byte in `Idle` is reported. This hardware takes `true` (42_unexpected.md R93,
decision D2, log 4). -/
def idleReports : Bool := true

/-- IDLE_DATA for either value of `IDLE_REPORTS`: with `false`, "the step emits no event and changes no register"
(42_unexpected.md R93). -/
def State.idleByte (m : State) (reports : Bool) (b : Byte) : State :=
  if reports then m.emit (.unexpectedByte codeIdle b) else m.silent

/-- IDLE_DATA (42_unexpected.md R93). -/
def execIdleData (b : Byte) (m : State) : Host.Outcome State Fault Refusal :=
  .next (m.idleByte idleReports b)

/-- DEFAULT (42_unexpected.md R94): the report carries the code in the state register; no register changes
(`pending` by decision D22, log 10). -/
def execDefaultOp (_s : BitVec 1) (b : Byte) (m : State) : Host.Outcome State Fault Refusal :=
  .next (m.emit (.unexpectedByte m.state b))

end Sys2Proof.Machine
end

