-- ==== Sys2Proof/Machine/Dispatch.lean ====
section
/-! DEFINITION. The meaning of each operation, one arm a constructor (spec/30_encoding.md R61). -/

namespace Sys2Proof.Machine

def exec (i : Instr) (s : State) : Host.Outcome State Fault Refusal :=
  match i with
  | .start c => Sys2Proof.Machine.execStart c s
  | .endFrame c => Sys2Proof.Machine.execEndFrame c s
  | .idleData b => Sys2Proof.Machine.execIdleData b s
  | .addrHi b => Sys2Proof.Machine.execAddrHi b s
  | .addrLo b => Sys2Proof.Machine.execAddrLo b s
  | .instanceOp b => Sys2Proof.Machine.execInstanceOp b s
  | .dataHi b => Sys2Proof.Machine.execDataHi b s
  | .dataLo b => Sys2Proof.Machine.execDataLo b s
  | .defaultOp c b => Sys2Proof.Machine.execDefaultOp c b s

end Sys2Proof.Machine
end

