-- ==== Sys2Proof/Machine/Fetch.lean ====
section
/-! DEFINITION. What one cycle of `clk` asks of the block: an operation, no operation, or nothing the spec gives a
meaning (spec/30_encoding.md R78, spec/70_reset_and_hazards.md R115 and R120). -/

namespace Sys2Proof.Machine

/-- The demand of one cycle. -/
inductive Fetched where
  /-- A byte is fed: the operation its operation word selects, and the state it runs in. -/
  | operation (i : Instr) (s : State)
  /-- No step of the decoder occurs: a reset or an idle cycle, with the state after it. -/
  | noOperation (s : State)
  /-- The cycle has no meaning. -/
  | refusal (r : Refusal)
deriving DecidableEq, Repr

/-- The demand of the input cycle `c` on a machine from whose list it has been taken. Reset wins over a byte
(70_reset_and_hazards.md R115); with one byte the operation of `{state, b}` runs (30_encoding.md R62); with none the
registers hold and no event is presented (R78); two producers at once are refused (70_reset_and_hazards.md R120). -/
def fetchCycle (c : InputCycle) (s : State) : Fetched :=
  if c.rst then .noOperation s.resetRegisters
  else
    match c.offers with
    | [] => .noOperation s.silent
    | [b] => .operation (decode (opWord s.state b)) s
    | _ :: _ :: _ => .refusal .concurrentFeed

/-- The demand of the next cycle. Where the host lists none, `in_valid` stays 0: the end of the stream changes no
register and emits no event (30_encoding.md R80, 70_reset_and_hazards.md R122). -/
def fetch (s : State) : Fetched :=
  match s.inputs with
  | [] => .noOperation s.silent
  | c :: rest => fetchCycle c (s.setInputs rest)

/-- The machine whose next cycle runs the operation word `w`: the word's code is put into the state register and its
byte in front of the host's input cycles (30_encoding.md R60, log 14). -/
def State.placeWord (s : State) (w : OpWord) : State :=
  (s.enter w.code).setInputs (InputCycle.feed w.byte :: s.inputs)

end Sys2Proof.Machine
end

