-- ==== Sys2Proof/Machine/Step.lean ====
section
/-! DEFINITION. One step of the machine: one cycle of `clk` (spec/30_encoding.md R62 and R78). -/

namespace Sys2Proof.Machine

/-- One cycle: the operation the cycle asks for, in the state it runs in; the state of a cycle without an operation;
or the refusal of a cycle without a meaning. -/
def step (s : State) : Host.Outcome State Fault Refusal :=
  match fetch s with
  | .operation i t => exec i t
  | .noOperation t => .next t
  | .refusal r => .refused r

/-- `s` with the operation word `w` placed where the next step takes it from; the bits above `nbits` are 0. -/
def State.withFetchWord (s : State) (nbits w : Nat) : State := s.placeWord (BitVec.ofNat 11 (w % 2 ^ nbits))

end Sys2Proof.Machine
end

