-- ==== Sys2Proof/Config.lean ====
section
/-! DEFINITION. The parameters the spec leaves OPEN: those of the renderer outside the block
(spec/92_eei_decisions.md D19). The spec leaves no value of the block itself open, so there is no free value.

The fixed parameters of spec/00_scope.md section 3 each stand in one place. The widths are the types of
Sys2Proof/Word.lean. The values stand where a later repair may mend them: the markers and the state codes in
Sys2Proof/Decode.lean, the field shift in Machine/Operands.lean, `idleReports` in Machine/Unexpected.lean, the event
kind codes in Machine/Ports.lean. -/

namespace Sys2Proof.Config

/-- The letter case of the renderer's hexadecimal digits, `RENDER_HEX_CASE` (D19, OPEN). -/
inductive HexCase where
  | lower
  | upper
deriving DecidableEq, Repr

/-- The OPEN parameters of the renderer (30_encoding.md R84 and R85, 92_eei_decisions.md D19). The spec gives
none of them a value, so every claim about rendered text takes them as an argument. -/
structure RenderParams where
  /-- `RENDER_BASE`: the base of `{v}`, `{n}` and `{state}`. -/
  base : Nat
  /-- `RENDER_HEX_CASE`: the letter case of "3-digit hex". -/
  hexCase : HexCase
  /-- `RENDER_HEX_PAD`: the character that fills "3-digit hex" up to three places on the left, if one does. -/
  hexPad : Option Char
  /-- `RENDER_PAD_FRAMEEND`, for the first line of `FrameEnded` (`END`). -/
  padEndLine : Bool
  /-- `RENDER_PAD_FRAMEEND`, for its second line (the iterations). -/
  padIterationsLine : Bool
  /-- Whether the blank line after a `DataReady` line is padded too (R85 does not say; log 11). -/
  padBlankLine : Bool
deriving DecidableEq, Repr

end Sys2Proof.Config
end

