-- ==== Sys2Proof/Machine/Render.lean ====
section
/-! DEFINITION. The external renderer, outside the block (spec/00_scope.md R8): what it displays for each event
(spec/30_encoding.md R84 and R85), for every value of its open parameters (decision D19, log 11). It reads only
events and adds no state. Text is a list of characters. -/

namespace Sys2Proof.Machine

/-- One act of the display. -/
inductive Display where
  /-- "reposition display cursor to origin; no text line". -/
  | home
  /-- One line of text. -/
  | line (text : List Char)
deriving DecidableEq, Repr

/-- The column width of the padded lines (30_encoding.md R85). -/
def lineColumns : Nat := 20

/-- A line right-padded with spaces to the column width; a longer one is left as it is. -/
def padLine (text : List Char) : List Char := text ++ List.replicate (lineColumns - text.length) ' '

/-- A line, padded if `padded`. -/
def displayLine (padded : Bool) (text : List Char) : Display := .line (if padded then padLine text else text)

/-- A number in the renderer's base. -/
def renderNumber (p : Config.RenderParams) (n : Nat) : List Char := Nat.toDigits p.base n

/-- The digit of a nibble in the renderer's letter case. -/
def hexChar (hexCase : Config.HexCase) (n : Nat) : Char :=
  match hexCase with
  | .lower => Nat.digitChar n
  | .upper => (Nat.digitChar n).toUpper

/-- "`{v as 3-digit hex}`": the hexadecimal digits of a byte, filled on the left to three places if the renderer has
a filling character. -/
def renderHex (p : Config.RenderParams) (b : Byte) : List Char :=
  let high := b.toNat / 16
  let digits := (if high = 0 then [] else [hexChar p.hexCase high]) ++ [hexChar p.hexCase (b.toNat % 16)]
  match p.hexPad with
  | none => digits
  | some c => List.replicate (3 - digits.length) c ++ digits

/-- The display output of an event (30_encoding.md R84, R85). -/
def renderEvent (p : Config.RenderParams) : Event → List Display
  | .addressReady v => [displayLine true (['A', 'd', 'd', 'r', 'e', 's', 's', ' '] ++ renderNumber p v.toNat)]
  | .instanceReady v => [displayLine true (['I', 'n', 's', 't', 'a', 'n', 'c', 'e', ' '] ++ renderNumber p v.toNat)]
  | .dataReady v =>
    [displayLine true (['D', 'a', 't', 'a', ' '] ++ renderNumber p v.toNat), displayLine p.padBlankLine []]
  | .frameEnded n =>
    [displayLine p.padEndLine ['E', 'N', 'D'],
     displayLine p.padIterationsLine
       (renderNumber p n.toNat ++ [' ', 'i', 't', 'e', 'r', 'a', 't', 'i', 'o', 'n', 's', '.'])]
  | .frameStarted => [.home]
  | .unexpectedByte c v =>
    [displayLine false (['S', 't', 'a', 't', 'e', ' '] ++ renderNumber p c.toNat ++
      [' ', 'v', 'a', 'l', 'u', 'e', ' '] ++ renderHex p v)]

end Sys2Proof.Machine
end

