-- ==== Sys2Proof/Machine/Ports.lean ====
section
/-! DEFINITION. The output ports: how the event of a cycle is driven on them, and how a consumer reads it back
(spec/30_encoding.md R75 to R77). -/

namespace Sys2Proof.Machine

/-- The output ports (30_encoding.md R75). -/
structure OutPorts where
  /-- `ev_valid`: an event is presented in this cycle. -/
  evValid : Bool
  /-- `ev_kind`: the event kind code (R76). -/
  evKind : BitVec 3
  /-- `ev_value`: the payload value (R77). -/
  evValue : BitVec 64
  /-- `ev_state`: the state payload of `UnexpectedByte`, else 0 (R77). -/
  evState : BitVec 3
deriving DecidableEq, Repr

/-- The kind code of an event (30_encoding.md R76). -/
def kindCode : Event → BitVec 3
  | .frameStarted => 1#3
  | .addressReady _ => 2#3
  | .instanceReady _ => 3#3
  | .dataReady _ => 4#3
  | .frameEnded _ => 5#3
  | .unexpectedByte _ _ => 6#3

/-- The payload on `ev_value` (30_encoding.md R77). -/
def portValue : Event → BitVec 64
  | .frameStarted => 0#64
  | .addressReady v => v.setWidth 64
  | .instanceReady v => v.setWidth 64
  | .dataReady v => v.setWidth 64
  | .frameEnded n => n
  | .unexpectedByte _ v => v.setWidth 64

/-- The payload on `ev_state` (30_encoding.md R77). -/
def portState : Event → BitVec 3
  | .unexpectedByte c _ => c
  | .frameStarted => 0#3
  | .addressReady _ => 0#3
  | .instanceReady _ => 0#3
  | .dataReady _ => 0#3
  | .frameEnded _ => 0#3

/-- What the block drives for the event of a cycle; the "none" row without one (30_encoding.md R76, R77). -/
def drive : Option Event → OutPorts
  | none => ⟨false, 0#3, 0#64, 0#3⟩
  | some e => ⟨true, kindCode e, portValue e, portState e⟩

/-- The output ports in the cycle last performed. -/
def State.ports (s : State) : OutPorts := drive s.event

/-- A consumer's reading of the ports, by `ev_kind` (log 12). The block never drives code 7; "A consumer model that
sees it should `fault`" (93_implementation_defined.md I10). -/
def OutPorts.read (p : OutPorts) : Except Fault (Option Event) :=
  match p.evKind.toNat with
  | 0 => .ok none
  | 1 => .ok (some .frameStarted)
  | 2 => .ok (some (.addressReady (p.evValue.setWidth 14)))
  | 3 => .ok (some (.instanceReady (p.evValue.setWidth 8)))
  | 4 => .ok (some (.dataReady (p.evValue.setWidth 14)))
  | 5 => .ok (some (.frameEnded p.evValue))
  | 6 => .ok (some (.unexpectedByte p.evState (p.evValue.setWidth 8)))
  | _ => .error .reservedEventKind

end Sys2Proof.Machine
end

