-- ==== Sys2Proof/Machine/Stream.lean ====
section
/-! DEFINITION. The transaction-level view: `Feed`, `FeedAll`, the reference listing, and the byte lists of the
pseudo-operations (spec/30_encoding.md R62 and R82, spec/00_scope.md section 4). The spec makes this level the
normative one; the cycle-level step carries one `Feed` for each accepted byte (decision D14). -/

namespace Sys2Proof.Machine

/-- `Feed(S, b)`: decode `{S.state, b}` and perform the operation; the event is the next state's `event`
(30_encoding.md R62). -/
def feed (s : State) (b : Byte) : Host.Outcome State Fault Refusal := exec (decode (opWord s.state b)) s

/-- `FeedAll(S, bytes)`: the left fold of `Feed`, with the events in order (00_scope.md section 4); `none` if a step
does not complete. -/
def feedAll (s : State) : List Byte → Option (State × List Event)
  | [] => some (s, [])
  | b :: bs =>
    match feed s b with
    | .next t => (feedAll t bs).map fun r => (r.1, t.event.toList ++ r.2)
    | .fault _ => none
    | .refused _ => none

/-- The three registers, the `S` of the spec's notation (00_scope.md section 4). -/
structure Regs where
  state : StateCode
  pending : Field
  counter : Count
deriving DecidableEq, Repr

/-- The registers of the machine. -/
def State.regs (s : State) : Regs := ⟨s.state, s.pending, s.counter⟩

/-- The reference listing of 30_encoding.md R62, line by line, on unbounded naturals where the listing computes on
them. It is independent of the decoder and of the meanings, and nothing runs it: claims compare the machine with it. -/
def referenceFeed (r : Regs) (b : Byte) : Regs × Option Event :=
  if b.toNat = 0x80 then (⟨1#3, 0#14, r.counter⟩, some .frameStarted)
  else if b.toNat = 0x40 then
    let c := BitVec.ofNat 64 ((r.counter.toNat + 1) % 2 ^ 64)
    (⟨0#3, 0#14, c⟩, some (.frameEnded c))
  else
    match r.state.toNat with
    | 0 => (⟨0#3, r.pending, r.counter⟩, some (.unexpectedByte 0#3 b))
    | 1 => (⟨2#3, BitVec.ofNat 14 (b.toNat * 64), r.counter⟩, none)
    | 2 => (⟨3#3, 0#14, r.counter⟩, some (.addressReady (BitVec.ofNat 14 (r.pending.toNat ||| b.toNat))))
    | 3 => (⟨4#3, r.pending, r.counter⟩, some (.instanceReady b))
    | 4 => (⟨5#3, BitVec.ofNat 14 (b.toNat * 64), r.counter⟩, none)
    | 5 => (⟨1#3, 0#14, r.counter⟩, some (.dataReady (BitVec.ofNat 14 (r.pending.toNat ||| b.toNat))))
    | _ => (r, some (.unexpectedByte r.state b))

/-- `FIELDS a, i, d` (30_encoding.md R82); it is defined for `a` and `d` below `0x1000` and a data byte `i`. -/
def fieldsBytes (a : Nat) (i : Byte) (d : Nat) : List Byte :=
  [BitVec.ofNat 8 (a >>> 6), BitVec.ofNat 8 (a &&& 0x3F), i, BitVec.ofNat 8 (d >>> 6), BitVec.ofNat 8 (d &&& 0x3F)]

/-- `FRAME a, i, d` (30_encoding.md R82). -/
def frameBytes (a : Nat) (i : Byte) (d : Nat) : List Byte := [0x80#8] ++ fieldsBytes a i d ++ [0x40#8]

end Sys2Proof.Machine
end

