-- ==== Sys2Proof/Safety.lean ====
section
/-! DEFINITION. What counts as a safe run and a reachable state, in the terms claims use. -/

namespace Sys2Proof.Machine

/-- The host keeps its duty in a cycle: at most one producer feeds, or the cycle is a reset cycle, which takes no
byte (spec/70_reset_and_hazards.md R115, R120; that a reset cycle may have several producers is log 3). -/
abbrev InputCycle.Lawful (c : InputCycle) : Prop := c.rst = true ∨ c.offers.length ≤ 1

/-- The host keeps its duty in every listed cycle. A run from such a state is safe: no step of it stops. -/
abbrev State.Lawful (s : State) : Prop := ∀ c ∈ s.inputs, c.Lawful

/-- The byte the next cycle feeds, if it feeds exactly one and is no reset cycle. -/
def State.fedByte (s : State) : Option Byte :=
  match s.inputs with
  | [] => none
  | c :: _ =>
    if c.rst then none
    else
      match c.offers with
      | [b] => some b
      | _ => none

/-- Whether the next cycle is a reset cycle. -/
def State.resetNext (s : State) : Bool :=
  match s.inputs with
  | [] => false
  | c :: _ => c.rst

/-- The codes whose states hold a high byte in `pending`: `ExpectAddressLow` and `ExpectDataLow` (10_state.md R26). -/
abbrev holdsHighByte (c : StateCode) : Prop := c = codeExpectAddressLow ∨ c = codeExpectDataLow

/-- What every reachable state satisfies: a named state code (10_state.md R22), `pending` cleared outside the two
states that hold a high byte (R27, R28), and in them a shifted byte and nothing below it (R26, 30_encoding.md R66). -/
abbrev State.Inv (s : State) : Prop :=
  s.state.toNat ≤ 5 ∧
  (¬ holdsHighByte s.state → s.pending = 0#14) ∧
  (∃ b : Byte, s.pending = packHigh b)

/-- The event of the cycle last performed agrees with the registers the cycle left (30_encoding.md R69 to R72, and
the next-state column of R61). -/
def State.eventAgrees (s : State) : Bool :=
  match s.event with
  | none => true
  | some .frameStarted => s.state == codeExpectAddressHigh && s.pending == 0#14
  | some (.addressReady _) => s.state == codeExpectInstance && s.pending == 0#14
  | some (.instanceReady v) => isData v && s.state == codeExpectDataHigh
  | some (.dataReady _) => s.state == codeExpectAddressHigh && s.pending == 0#14
  | some (.frameEnded n) => n == s.counter && s.state == codeIdle && s.pending == 0#14
  | some (.unexpectedByte c v) => isData v && c == s.state && (c == codeIdle || c == 6#3 || c == 7#3)

/-- Two machines that differ at most in a `pending` no output can show: equal but for `pending`, and equal in it
where the state holds a high byte (10_state.md R28). -/
abbrev PendingEquiv (s t : State) : Prop :=
  s.state = t.state ∧ s.counter = t.counter ∧ s.event = t.event ∧ s.inputs = t.inputs ∧
  (holdsHighByte s.state → s.pending = t.pending)

/-- The observation of a run of `k` cycles: the state it ends in and the events it emits, in order
(60_exceptions.md R109, 20_memory.md R52); `none` if it stops before. -/
def observe : Nat → State → Option (State × List Event)
  | 0, s => some (s, [])
  | k + 1, s =>
    match step s with
    | .next t => (observe k t).map fun r => (r.1, t.event.toList ++ r.2)
    | .fault _ => none
    | .refused _ => none

/-- The bytes a host feeds in a list of cycles. -/
def fedBytes (cs : List InputCycle) : List Byte := cs.flatMap (·.offers)

/-- The next state of an outcome, if it has one. -/
def nextState (o : Host.Outcome State Fault Refusal) : Option State :=
  match o with
  | .next s => some s
  | .fault _ => none
  | .refused _ => none

end Sys2Proof.Machine
end

