-- ==== Sys2Proof/WellFormed.lean ====
section
/-! DEFINITION. When a term of `Instr` is an operation that some operation word selects. The byte of a row of
priority 3 is a data byte, since the markers are taken first (spec/30_encoding.md R61, the "excludes" of
spec/opcode_table.json). It imports Decode for the markers' values. -/

namespace Sys2Proof

/-- Well-formedness of an operation: a data operation holds a data byte (41_field_packer.md, "`b` is never `0x40`
or `0x80`"); a marker operation has no check. -/
def Instr.wellFormed : Instr → Bool
  | .start _ => true
  | .endFrame _ => true
  | .idleData b => isData b
  | .addrHi b => isData b
  | .addrLo b => isData b
  | .instanceOp b => isData b
  | .dataHi b => isData b
  | .dataLo b => isData b
  | .defaultOp _ b => isData b

end Sys2Proof
end

