-- ==== Sys2Proof/Certificates/Slice0/Obligations.lean ====
section
/-! DEFINITION. The statements for the provers. Each docstring names the rule of spec/ it formalises; a clause that
rests on a decision of the spec (92_eei_decisions.md) or on a log entry says so.

Conventions: a byte `b` is a data byte when `b ≠ 0x80#8` and `b ≠ 0x40#8` (30_encoding.md R59). A cycle `c` feeds
exactly the byte `b` when `c.rst = false` and `c.offers = [b]`; that this takes in a cycle that lists several producers
of which one feeds, and `c.offers = []` one that lists none, is the model's choice (log 3). That a step is one cycle,
takes the first listed cycle, and finds an idle cycle after the last one is the model's choice too (log 1, log 2). -/

open Sys2Proof Sys2Proof.Machine

/-! ## Encoding -/

/-- 30_encoding.md R60 and R61: decode of the word of a well-formed operation is that operation, for every operation
and every operand value. -/
def Obligations.DecodeOfEncodeIsTheOperation : Prop :=
  ∀ i : Instr, i.wellFormed = true → decode (encode i) = i

/-- 30_encoding.md R64: every operation word selects an operation, that operation is well formed, and it encodes back
to the word, so that no two words share an operation with its operands. -/
def Obligations.EncodeOfDecodeIsTheWord : Prop :=
  ∀ w : OpWord, (decode w).wellFormed = true ∧ encode (decode w) = w

/-- 30_encoding.md R61: the operation of `{s, b}` by the priority table: the marker rows first, then the row of the
state code. -/
def Obligations.DecodeTakesFirstRowOfPriorityTable : Prop :=
  ∀ (s : BitVec 3) (b : BitVec 8),
    (b = 0x80#8 → (decode (s ++ b)).kind = .START) ∧
    (b = 0x40#8 → (decode (s ++ b)).kind = .END) ∧
    (b ≠ 0x80#8 → b ≠ 0x40#8 →
      (s = 0#3 → (decode (s ++ b)).kind = .IDLE_DATA) ∧
      (s = 1#3 → (decode (s ++ b)).kind = .ADDR_HI) ∧
      (s = 2#3 → (decode (s ++ b)).kind = .ADDR_LO) ∧
      (s = 3#3 → (decode (s ++ b)).kind = .INSTANCE) ∧
      (s = 4#3 → (decode (s ++ b)).kind = .DATA_HI) ∧
      (s = 5#3 → (decode (s ++ b)).kind = .DATA_LO) ∧
      (s = 6#3 ∨ s = 7#3 → (decode (s ++ b)).kind = .DEFAULT))

/-- spec/opcode_table.json with 30_encoding.md R61: for every word, the operation decoded is that of the first row,
in order of priority, with `w AND mask = match`. -/
def Obligations.DecodeAgreesWithMaskAndMatchTable : Prop :=
  ∀ w : OpWord, tableKind w = some (decode w).kind

/-- 30_encoding.md R64: how many of the 2048 words select each operation. -/
def Obligations.OperationWordCounts : Prop :=
  wordCount .START = 8 ∧ wordCount .END = 8 ∧ wordCount .IDLE_DATA = 254 ∧ wordCount .ADDR_HI = 254 ∧
  wordCount .ADDR_LO = 254 ∧ wordCount .INSTANCE = 254 ∧ wordCount .DATA_HI = 254 ∧ wordCount .DATA_LO = 254 ∧
  wordCount .DEFAULT = 508

/-- The patterns of spec/opcode_table.json, one word an operation written out bit by bit. -/
def Obligations.WrittenOutWordsDecode : Prop :=
  decode 0b011_10000000#11 = .start 3#3 ∧
  decode 0b101_01000000#11 = .endFrame 5#3 ∧
  decode 0b000_11000000#11 = .idleData 0xC0#8 ∧
  decode 0b001_10000001#11 = .addrHi 0x81#8 ∧
  decode 0b010_01111111#11 = .addrLo 0x7F#8 ∧
  decode 0b011_00000101#11 = .instanceOp 0x05#8 ∧
  decode 0b100_11111111#11 = .dataHi 0xFF#8 ∧
  decode 0b101_00010000#11 = .dataLo 0x10#8 ∧
  decode 0b111_00010010#11 = .defaultOp 1#1 0x12#8

/-- 30_encoding.md R60 (an operation word has 11 bits); that a wider number is rejected is the model's choice
(log 13). -/
def Obligations.NumbersAboveElevenBitsAreRejected : Prop :=
  ∀ nbits w : Nat,
    (w % 2 ^ nbits < 2048 → decodeTableWord nbits w = some (decode (BitVec.ofNat 11 (w % 2 ^ nbits)))) ∧
    (2048 ≤ w % 2 ^ nbits → decodeTableWord nbits w = none)

/-! ## A step runs the decoded operation -/

/-- 30_encoding.md R62 and R78: in a cycle that feeds exactly one byte, the step is the operation that the current
state code and the byte decode to, on the machine from whose list the cycle is taken. Which cycles feed one byte is
log 3, that the cycle is the first of a list log 1. -/
def Obligations.StepRunsDecodedOperation : Prop :=
  ∀ (s : State) (c : InputCycle) (rest : List InputCycle) (b : BitVec 8),
    s.inputs = c :: rest → c.rst = false → c.offers = [b] →
    step s = exec (decode (s.state ++ b)) { s with inputs := rest }

/-- 30_encoding.md R62: the step is the reference listing of the rule, for every state (codes 6 and 7 too) and every
byte. The listing's wrap, cleared values and report in `Idle` are the spec's decisions D3, D4, D2 and D22; which
cycles feed one byte is log 3. -/
def Obligations.StepIsTheReferenceListing : Prop :=
  ∀ (s : State) (c : InputCycle) (rest : List InputCycle) (b : BitVec 8),
    s.inputs = c :: rest → c.rst = false → c.offers = [b] →
    step s = .next
      { state := (referenceFeed s.regs b).1.state
        pending := (referenceFeed s.regs b).1.pending
        counter := (referenceFeed s.regs b).1.counter
        event := (referenceFeed s.regs b).2
        inputs := rest }

/-- The model's `withFetchWord` (log 14): the next step runs exactly the operation the decoder reads from the word,
in a state that differs from `s` only in the state code of the word. -/
def Obligations.PlacedWordRunsNext : Prop :=
  ∀ (s : State) (nbits w : Nat) (i : Instr), decodeTableWord nbits w = some i →
    step (s.withFetchWord nbits w) = exec i { s with state := BitVec.ofNat 3 (w % 2 ^ nbits / 256) }

/-! ## Each operation: it completes, what it writes, and its frame -/

/-- 40_markers.md R86: START, in every state. The cleared `pending` is decision D4. -/
def Obligations.StartOperationResult : Prop :=
  ∀ (k : BitVec 3) (s : State), ∃ t, exec (.start k) s = .next t ∧
    t.state = 1#3 ∧ t.pending = 0#14 ∧ t.event = some .frameStarted ∧
    t.counter = s.counter ∧ t.inputs = s.inputs

/-- 40_markers.md R87 with 10_state.md R31: END, in every state. The wrap is decision D3, the cleared `pending` D4. -/
def Obligations.EndOperationResult : Prop :=
  ∀ (k : BitVec 3) (s : State), ∃ t, exec (.endFrame k) s = .next t ∧
    t.counter.toNat = (s.counter.toNat + 1) % 2 ^ 64 ∧ t.event = some (.frameEnded t.counter) ∧
    t.state = 0#3 ∧ t.pending = 0#14 ∧ t.inputs = s.inputs

/-- 41_field_packer.md R88: ADDR_HI: its encoding (for data bytes and no other), its effect, its corner cases and its frame. -/
def Obligations.AddressHighByteResult : Prop :=
  (∀ b : BitVec 8, decode (1#3 ++ b) = .addrHi b ↔ b ≠ 0x80#8 ∧ b ≠ 0x40#8) ∧
  ∀ (b : BitVec 8) (s : State), ∃ t, exec (.addrHi b) s = .next t ∧
    t.pending = b.setWidth 14 <<< 6 ∧ t.pending.toNat = b.toNat * 64 ∧ (0x41 ≤ b.toNat → 0x1000 ≤ t.pending.toNat) ∧
    t.state = 2#3 ∧ t.event = none ∧ t.counter = s.counter ∧ t.inputs = s.inputs

/-- 41_field_packer.md R89: ADDR_LO. The cleared `pending` is decision D4. -/
def Obligations.AddressLowByteResult : Prop :=
  ∀ (b : BitVec 8) (s : State), ∃ t, exec (.addrLo b) s = .next t ∧
    (∃ v : BitVec 14, t.event = some (.addressReady v) ∧ v.toNat = s.pending.toNat ||| b.toNat) ∧
    t.pending = 0#14 ∧ t.state = 3#3 ∧ t.counter = s.counter ∧ t.inputs = s.inputs

/-- 41_field_packer.md R90: INSTANCE: its encoding (for data bytes and no other; in `ExpectInstance` the byte `0x40`
ends the frame and `0x80` restarts it), its effect and its frame. -/
def Obligations.InstanceByteResult : Prop :=
  (∀ b : BitVec 8, decode (3#3 ++ b) = .instanceOp b ↔ b ≠ 0x80#8 ∧ b ≠ 0x40#8) ∧
  decode (3#3 ++ 0x40#8) = .endFrame 3#3 ∧ decode (3#3 ++ 0x80#8) = .start 3#3 ∧
  ∀ (b : BitVec 8) (s : State), ∃ t, exec (.instanceOp b) s = .next t ∧
    t.event = some (.instanceReady b) ∧ t.state = 4#3 ∧
    t.pending = s.pending ∧ t.counter = s.counter ∧ t.inputs = s.inputs

/-- 41_field_packer.md R91: DATA_HI: its encoding (for data bytes and no other), its effect, its corner cases (those of ADDR_HI)
and its frame. -/
def Obligations.DataHighByteResult : Prop :=
  (∀ b : BitVec 8, decode (4#3 ++ b) = .dataHi b ↔ b ≠ 0x80#8 ∧ b ≠ 0x40#8) ∧
  ∀ (b : BitVec 8) (s : State), ∃ t, exec (.dataHi b) s = .next t ∧
    t.pending = b.setWidth 14 <<< 6 ∧ t.pending.toNat = b.toNat * 64 ∧ (0x41 ≤ b.toNat → 0x1000 ≤ t.pending.toNat) ∧
    t.state = 5#3 ∧ t.event = none ∧ t.counter = s.counter ∧ t.inputs = s.inputs

/-- 41_field_packer.md R92: DATA_LO; the next state is `ExpectAddressHigh`, not `Idle`. The cleared `pending` is
decision D4. -/
def Obligations.DataLowByteResult : Prop :=
  ∀ (b : BitVec 8) (s : State), ∃ t, exec (.dataLo b) s = .next t ∧
    (∃ v : BitVec 14, t.event = some (.dataReady v) ∧ v.toNat = s.pending.toNat ||| b.toNat) ∧
    t.pending = 0#14 ∧ t.state = 1#3 ∧ t.counter = s.counter ∧ t.inputs = s.inputs

/-- 42_unexpected.md R93: IDLE_DATA reports the byte and changes no register (decision D2, log 4); with
`IDLE_REPORTS = false` it would report nothing, and change no register either. -/
def Obligations.IdleDataByteResult : Prop :=
  (∀ (b : BitVec 8) (s : State), ∃ t, exec (.idleData b) s = .next t ∧
    t.event = some (.unexpectedByte 0#3 b) ∧
    t.state = s.state ∧ t.pending = s.pending ∧ t.counter = s.counter ∧ t.inputs = s.inputs) ∧
  ∀ (b : BitVec 8) (s : State), s.idleByte false b = { s with event := none }

/-- 42_unexpected.md R94: DEFAULT reports the byte with the code in the state register and changes no register
(`pending` by decision D22, log 10). -/
def Obligations.DefaultByteResult : Prop :=
  ∀ (k : BitVec 1) (b : BitVec 8) (s : State), ∃ t, exec (.defaultOp k b) s = .next t ∧
    t.event = some (.unexpectedByte s.state b) ∧
    t.state = s.state ∧ t.pending = s.pending ∧ t.counter = s.counter ∧ t.inputs = s.inputs

/-! ## The field packer -/

/-- 30_encoding.md R66: a two-byte field has the value `(zext_14(h) << 6) | zext_14(l)`, no byte masked, the same for
the address and the data field, whatever `pending` held before. -/
def Obligations.TwoByteFieldPacking : Prop :=
  ∀ (s : State) (h l : BitVec 8), h ≠ 0x80#8 → h ≠ 0x40#8 → l ≠ 0x80#8 → l ≠ 0x40#8 →
    (s.state = 1#3 → ∃ t, feedAll s [h, l] = some (t, [.addressReady (h.setWidth 14 <<< 6 ||| l.setWidth 14)])) ∧
    (s.state = 4#3 → ∃ t, feedAll s [h, l] = some (t, [.dataReady (h.setWidth 14 <<< 6 ||| l.setWidth 14)]))

/-- 30_encoding.md R67 and R68: the packed value fits 12 bits exactly when the high byte is at most `0x3F`; its bits
are those of the rule; and it is `h * 64 + l` exactly when the overlapping bits do not meet. -/
def Obligations.PackedFieldBits : Prop :=
  ∀ h l : BitVec 8,
    ((packLow (packHigh h) l).toNat < 0x1000 ↔ h.toNat ≤ 0x3F) ∧
    (packLow (packHigh h) l).extractLsb' 8 6 = h.extractLsb' 2 6 ∧
    (packLow (packHigh h) l).extractLsb' 6 2 = h.extractLsb' 0 2 ||| l.extractLsb' 6 2 ∧
    (packLow (packHigh h) l).extractLsb' 0 6 = l.extractLsb' 0 6 ∧
    ((packLow (packHigh h) l).toNat = h.toNat * 64 + l.toNat ↔ (h &&& 0x03#8) &&& (l >>> 6) = 0#8)

/-- 30_encoding.md R83: the round trip of the pseudo-operations, from any state: FRAME reports its three values, and
FIELDS does from `ExpectAddressHigh`. The final `pending` is decision D4, the wrap of the count D3. -/
def Obligations.FrameAndFieldsRoundTrip : Prop :=
  ∀ (s : State) (a d : Nat) (i : BitVec 8), a < 0x1000 → d < 0x1000 → i ≠ 0x80#8 → i ≠ 0x40#8 →
    (∃ t, feedAll s (frameBytes a i d) =
        some (t, [.frameStarted, .addressReady (BitVec.ofNat 14 a), .instanceReady i, .dataReady (BitVec.ofNat 14 d),
          .frameEnded (BitVec.ofNat 64 ((s.counter.toNat + 1) % 2 ^ 64))]) ∧
      t.state = 0#3 ∧ t.pending = 0#14 ∧ t.counter.toNat = (s.counter.toNat + 1) % 2 ^ 64) ∧
    (s.state = 1#3 → ∃ t, feedAll s (fieldsBytes a i d) =
        some (t, [.addressReady (BitVec.ofNat 14 a), .instanceReady i, .dataReady (BitVec.ofNat 14 d)]) ∧
      t.state = 1#3 ∧ t.counter = s.counter)

/-! ## The counter -/

/-- 10_state.md R30: only END writes the counter, adding exactly 1, and nothing but reset sets it to a given value
(70_reset_and_hazards.md R113, R116): over the operations, and over the steps. That 1 added to the maximum gives 0 is
the spec's decision D3 (10_state.md R31, log 5); that a reset cycle clears the counter is D5, and that it does so with
`0x40` on the input too is D6 (70_reset_and_hazards.md R115, log 9); that it does so with two producers feeding is the
model's inference (log 3). -/
def Obligations.OnlyEndAndResetWriteCounter : Prop :=
  (∀ (i : Instr) (s t : State), exec i s = .next t →
    (i.kind = .END → t.counter = s.counter + 1#64) ∧ (i.kind ≠ .END → t.counter = s.counter)) ∧
  (∀ s t : State, step s = .next t →
    (s.resetNext = true → t.counter = 0#64) ∧
    (s.fedByte = some 0x40#8 → t.counter = s.counter + 1#64) ∧
    (s.resetNext = false → s.fedByte ≠ some 0x40#8 → t.counter = s.counter))

/-- 30_encoding.md R71: `FrameEnded` carries the counter after this END's increment, and the first END after reset
carries 1. That the increment of the maximum is 0 is the spec's decision D3 (10_state.md R31, log 5). -/
def Obligations.FrameEndedCarriesUpdatedCount : Prop :=
  (∀ (s t : State) (n : BitVec 64), step s = .next t → t.event = some (.frameEnded n) →
    n = s.counter + 1#64 ∧ t.counter = n) ∧
  (∀ bs : List (BitVec 8), 0x40#8 ∉ bs →
    ∃ t evs, feedAll State.reset (bs ++ [0x40#8]) = some (t, evs ++ [.frameEnded 1#64]))

/-- 10_state.md R29: what the counter counts is end-marker bytes: after any stream it has grown by the number of
`0x40` bytes in it (modulo 2^64, decision D3). -/
def Obligations.CounterCountsEndMarkers : Prop :=
  ∀ (bs : List (BitVec 8)) (s : State), ∃ t evs, feedAll s bs = some (t, evs) ∧
    t.counter.toNat = (s.counter.toNat + bs.count 0x40#8) % 2 ^ 64

/-! ## Events and ports -/

/-- 30_encoding.md R72, 42_unexpected.md R93 and R94, 60_exceptions.md R96: `UnexpectedByte` carries the code of the
state in which the byte arrived and the byte, comes from a data byte in `Idle` or an unnamed code and from nothing
else, and changes no register. That `Idle` reports is decision D2. -/
def Obligations.UnexpectedByteReportsStateAndByte : Prop :=
  (∀ (s t : State) (k : BitVec 3) (v : BitVec 8), step s = .next t → t.event = some (.unexpectedByte k v) →
    s.fedByte = some v ∧ v ≠ 0x80#8 ∧ v ≠ 0x40#8 ∧ k = s.state ∧ (k = 0#3 ∨ k = 6#3 ∨ k = 7#3) ∧
    t.regs = s.regs) ∧
  (∀ (s : State) (v : BitVec 8), s.fedByte = some v → v ≠ 0x80#8 → v ≠ 0x40#8 →
    (s.state = 0#3 ∨ s.state = 6#3 ∨ s.state = 7#3) →
    ∃ t, step s = .next t ∧ t.event = some (.unexpectedByte s.state v) ∧ t.regs = s.regs)

/-- 30_encoding.md R69 to R72: after every step, from every state, the event agrees with the registers the step
leaves: its kind with the state code, an instance or unexpected byte is a data byte, a count is the counter. The
cleared `pending` is decision D4. -/
def Obligations.EventAgreesWithRegistersAfterStep : Prop :=
  ∀ s t : State, step s = .next t → t.eventAgrees = true

/-- 30_encoding.md R75 to R77 (decisions D8 and D15): what the four ports show for no event and for each event, row by
row; so a consumer (which reads them by `ev_kind`, log 12) reads back the event driven, kind code 7 is never driven,
`ev_valid` is up exactly when the kind is not 0, and `ev_state` is 0 but for `UnexpectedByte`. -/
def Obligations.PortsCarryTheEvent : Prop :=
  drive none = { evValid := false, evKind := 0#3, evValue := 0#64, evState := 0#3 } ∧
  drive (some .frameStarted) = { evValid := true, evKind := 1#3, evValue := 0#64, evState := 0#3 } ∧
  (∀ v : BitVec 14, drive (some (.addressReady v)) =
    { evValid := true, evKind := 2#3, evValue := v.setWidth 64, evState := 0#3 }) ∧
  (∀ v : BitVec 8, drive (some (.instanceReady v)) =
    { evValid := true, evKind := 3#3, evValue := v.setWidth 64, evState := 0#3 }) ∧
  (∀ v : BitVec 14, drive (some (.dataReady v)) =
    { evValid := true, evKind := 4#3, evValue := v.setWidth 64, evState := 0#3 }) ∧
  (∀ n : BitVec 64, drive (some (.frameEnded n)) =
    { evValid := true, evKind := 5#3, evValue := n, evState := 0#3 }) ∧
  (∀ (k : BitVec 3) (v : BitVec 8), drive (some (.unexpectedByte k v)) =
    { evValid := true, evKind := 6#3, evValue := v.setWidth 64, evState := k }) ∧
  (∀ s : State, s.ports = drive s.event) ∧
  ∀ e : Option Event, (drive e).read = .ok e ∧ (drive e).evKind ≠ 7#3 ∧
    ((drive e).evValid = true ↔ (drive e).evKind ≠ 0#3) ∧
    ((drive e).evState ≠ 0#3 → ∃ k v, e = some (.unexpectedByte k v)) ∧
    (e = none → (drive e).evValue = 0#64 ∧ (drive e).evState = 0#3)

/-- 93_implementation_defined.md I10: a consumer that sees kind code 7 faults. That it does so whatever `ev_valid` says,
and faults on no other port value, is the model's choice: its consumer reads `ev_kind` alone (log 12). -/
def Obligations.ConsumerFaultsExactlyOnReservedKind : Prop :=
  ∀ p : OutPorts, p.read = .error .reservedEventKind ↔ p.evKind = 7#3

/-- 30_encoding.md R84 and R85: the text of each event, for every value of the renderer's open parameters (D19), the
lines of the first cases padded on the right to 20 columns. That spaces do the padding and a longer line stays as it is,
that numbers have no leading zeros but those of a filling character on the left, and which digits stand for 10 and
above, is the model's choice (log 11): `Nat.toDigits` gives the digits, in lower case. -/
def Obligations.RenderedLinesOfEvents : Prop :=
  (∀ text : List Char, padLine text = text ++ List.replicate (20 - text.length) ' ' ∧
    (padLine text).take text.length = text ∧ (padLine text).length = max 20 text.length ∧
    displayLine true text = .line (padLine text) ∧ displayLine false text = .line text) ∧
  (∀ (p : Config.RenderParams) (n : Nat), renderNumber p n = Nat.toDigits p.base n) ∧
  (∀ (p : Config.RenderParams) (b : BitVec 8),
    (p.hexPad = none → p.hexCase = .lower → renderHex p b = Nat.toDigits 16 b.toNat) ∧
    (p.hexPad = none → p.hexCase = .upper → renderHex p b = (Nat.toDigits 16 b.toNat).map Char.toUpper) ∧
    (∀ c : Char, p.hexPad = some c →
      renderHex p b =
        List.replicate (3 - (Nat.toDigits 16 b.toNat).length) c ++ renderHex { p with hexPad := none } b ∧
      (renderHex p b).length = 3)) ∧
  ∀ (p : Config.RenderParams) (v : BitVec 14) (b : BitVec 8) (n : BitVec 64) (k : BitVec 3),
    renderEvent p (.addressReady v) = [.line (padLine ("Address ".toList ++ renderNumber p v.toNat))] ∧
    renderEvent p (.instanceReady b) = [.line (padLine ("Instance ".toList ++ renderNumber p b.toNat))] ∧
    renderEvent p (.dataReady v) =
      [.line (padLine ("Data ".toList ++ renderNumber p v.toNat)), displayLine p.padBlankLine []] ∧
    renderEvent p (.frameEnded n) =
      [displayLine p.padEndLine "END".toList,
       displayLine p.padIterationsLine (renderNumber p n.toNat ++ " iterations.".toList)] ∧
    renderEvent p .frameStarted = [.home] ∧
    renderEvent p (.unexpectedByte k b) =
      [.line ("State ".toList ++ renderNumber p k.toNat ++ " value ".toList ++ renderHex p b)]

/-! ## Cycles, reset and the end of a run -/

/-- 70_reset_and_hazards.md R113, R114 and R115 (decisions D5 and D6, log 9): a reset cycle loads the initial
registers from every state, emits nothing, and takes no byte, whatever the producers drive. That this holds with two or
more producers feeding is the model's inference from R113 (log 3, DEDUCED). -/
def Obligations.ResetCycleWinsOverBytes : Prop :=
  ∀ (s : State) (c : InputCycle) (rest : List InputCycle), s.inputs = c :: rest → c.rst = true →
    step s = .next { state := 0#3, pending := 0#14, counter := 0#64, event := none, inputs := rest }

/-- 10_state.md R39 and R41: after reset the state is `Idle` and the counter 0; with no byte fed no event comes and
the counter stays 0; and the first END after reset emits `FrameEnded(1)`. That "no byte fed" is a run of State.reset
with its empty list of input cycles is the model's choice (log 1). -/
def Obligations.StateAndCounterAfterReset : Prop :=
  State.reset.state = 0#3 ∧ State.reset.counter = 0#64 ∧
  (∀ k : Nat, ∃ t, observe k State.reset = some (t, []) ∧ t.counter = 0#64) ∧
  (∀ bs : List (BitVec 8), 0x40#8 ∉ bs →
    ∃ t evs, feedAll State.reset (bs ++ [0x40#8]) = some (t, evs ++ [.frameEnded 1#64]))

/-- 10_state.md R40 (decision D4), 70_reset_and_hazards.md R114: `pending` is 0 after reset and no event is shown;
that no input cycle is listed is the model's choice (log 1). -/
def Obligations.PendingAndPortsAfterReset : Prop :=
  State.reset.pending = 0#14 ∧ State.reset.ports = ⟨false, 0#3, 0#64, 0#3⟩ ∧ State.reset.inputs = []

/-- 30_encoding.md R78 (decision D8): in a cycle with `rst = 0` and no byte, every register holds and the ports show
the "none" row; an event of an earlier cycle is gone (70_reset_and_hazards.md R121). That a cycle listing no producer,
or several of which none feeds, is such a cycle is the model's choice (log 3). -/
def Obligations.IdleCycleHoldsRegisters : Prop :=
  ∀ (s : State) (c : InputCycle) (rest : List InputCycle), s.inputs = c :: rest → c.rst = false → c.offers = [] →
    ∃ t, step s = .next t ∧ t.regs = s.regs ∧ t.inputs = rest ∧ t.ports = ⟨false, 0#3, 0#64, 0#3⟩

/-- 30_encoding.md R80 and 70_reset_and_hazards.md R122 (decision D9): once the host feeds nothing more, every
further cycle keeps the registers and emits nothing, a partial field included. That the empty list of input cycles is
this end of the stream is the model's choice (log 1). -/
def Obligations.EndOfStreamChangesNothing : Prop :=
  ∀ (k : Nat) (s : State), s.inputs = [] →
    ∃ t, observe k s = some (t, []) ∧ t.regs = s.regs ∧ t.inputs = []

/-- 70_reset_and_hazards.md R120 and 93_implementation_defined.md I7 (log 3): a step is refused exactly in a cycle
without reset in which two or more producers feed. -/
def Obligations.ConcurrentFeedingIsRefused : Prop :=
  ∀ s : State, step s = .refused .concurrentFeed ↔
    ∃ c rest, s.inputs = c :: rest ∧ c.rst = false ∧ 2 ≤ c.offers.length

/-- 60_exceptions.md R95: no input raises an exception: every operation completes from every state, every byte fed by
one producer completes in one step from every state, and no step faults. That a cycle listing several producers of which
one feeds is an ordinary fed cycle is the model's choice (log 3). -/
def Obligations.EveryByteCompletesWithoutException : Prop :=
  (∀ (i : Instr) (s : State), ∃ t, exec i s = .next t) ∧
  (∀ (s : State) (c : InputCycle) (rest : List InputCycle) (b : BitVec 8),
    s.inputs = c :: rest → c.rst = false → c.offers = [b] → ∃ t, step s = .next t) ∧
  (∀ (s : State) (f : Fault), step s ≠ .fault f)

/-- 60_exceptions.md R111: while the host keeps its duty of one producer (70_reset_and_hazards.md R120), no run
stops. The model's own parts: a reset cycle completes with two producers feeding too (log 3, DEDUCED), a cycle listing
several producers of which at most one feeds is an ordinary one (log 3), and a run goes on with idle cycles past the
last listed one (log 1). -/
def Obligations.LawfulRunsNeverStop : Prop :=
  ∀ (k : Nat) (s : State), s.Lawful → ∃ t, core.run k s = .next t ∧ t.Lawful

/-- The model's form of 20_memory.md R43 and R48 (one byte for each step): a step that completes uses up exactly the
first listed input cycle and leaves every later one. That the inputs are a list of cycles, one used up a step, is the
model's choice (log 1, and log 2 for one step being one cycle); the rules themselves speak only of bytes. -/
def Obligations.StepTakesExactlyOneInputCycle : Prop :=
  (∀ s t : State, step s = .next t → t.inputs = s.inputs.tail) ∧
  (∀ (i : Instr) (s t : State), exec i s = .next t → t.inputs = s.inputs)

/-! ## Whole-machine rules -/

/-- 10_state.md R22 and R26 to R28: the invariant of every reachable state (a named code; `pending` cleared but where
it holds a high byte, decision D4; a shifted byte there) is kept by every step. -/
def Obligations.StepKeepsReachableInvariant : Prop :=
  ∀ s t : State, s.Inv → step s = .next t → t.Inv

/-- 10_state.md R39 and R40 (decision D4): the invariant holds after reset. -/
def Obligations.ResetSatisfiesReachableInvariant : Prop := State.reset.Inv

/-- 10_state.md R24 and R22: how each state code is entered. `ExpectAddressHigh` by START or after the data low byte,
`Idle` by reset or END, every other named one from its predecessor by a data byte, the unnamed ones by nothing. -/
def Obligations.StatesAreEnteredOnlyInOrder : Prop :=
  ∀ s t : State, step s = .next t → t.state ≠ s.state →
    (t.state = 0#3 → s.resetNext = true ∨ s.fedByte = some 0x40#8) ∧
    (t.state = 1#3 → s.fedByte = some 0x80#8 ∨
      s.state = 5#3 ∧ ∃ b, s.fedByte = some b ∧ b ≠ 0x80#8 ∧ b ≠ 0x40#8) ∧
    (2 ≤ t.state.toNat →
      t.state.toNat ≤ 5 ∧ s.state.toNat + 1 = t.state.toNat ∧ ∃ b, s.fedByte = some b ∧ b ≠ 0x80#8 ∧ b ≠ 0x40#8)

/-- 10_state.md R28: two machines that differ only in a `pending` outside `ExpectAddressLow` and `ExpectDataLow` emit
the same events in every run, and go on differing only so. -/
def Obligations.PendingOutsideFieldsIsUnobservable : Prop :=
  ∀ (k : Nat) (s t : State), PendingEquiv s t →
    (observe k s = none ∧ observe k t = none) ∨
    ∃ u v evs, observe k s = some (u, evs) ∧ observe k t = some (v, evs) ∧ PendingEquiv u v

/-- 70_reset_and_hazards.md R124 and 20_memory.md R47: however a stream was misframed, from the next START on the
events and the registers depend on nothing before it but the counter. -/
def Obligations.StartResynchronises : Prop :=
  ∀ (s t : State) (bs : List (BitVec 8)), s.counter = t.counter →
    ∃ u v evs, feedAll s (0x80#8 :: bs) = some (u, evs) ∧ feedAll t (0x80#8 :: bs) = some (v, evs) ∧ u.regs = v.regs

/-- 30_encoding.md R78 and R62 (decision D14): the cycle-level interface carries one `Feed` for each accepted byte:
over any lawful cycles without reset, idle cycles among them, the events and the registers are those of `FeedAll`
over the bytes fed. That the cycles are a list taken one a step is log 1, which cycles feed one byte or none log 3. -/
def Obligations.CyclesCarryOneFeedPerByte : Prop :=
  ∀ (cs rest : List InputCycle) (s : State), s.inputs = cs ++ rest →
    (∀ c ∈ cs, c.rst = false ∧ c.offers.length ≤ 1) →
    ∃ t u evs, observe cs.length s = some (t, evs) ∧ feedAll s (fedBytes cs) = some (u, evs) ∧
      t.regs = u.regs ∧ t.inputs = rest
end

