-- ==== Sys2Proof/Laws/Decode.lean ====
section
/-! SUPPORT. The fields of an operation word, and the row the decoder takes for each class of byte and state. -/

namespace Sys2Proof

/-- A data byte is no marker. -/
theorem isData_iff {b : Byte} : isData b = true ↔ b ≠ startMarker ∧ b ≠ endMarker := by
  simp [isData]

/-- The code of `{c, b}` is `c`. -/
@[simp] theorem opWord_code (c : StateCode) (b : Byte) : (opWord c b).code = c :=
  BitVec.extractLsb'_append_eq_left

/-- The byte of `{c, b}` is `b`. -/
@[simp] theorem opWord_byte (c : StateCode) (b : Byte) : (opWord c b).byte = b :=
  BitVec.extractLsb'_append_eq_right

/-- An operation word is its code and its byte. -/
theorem opWord_code_byte (w : OpWord) : opWord w.code w.byte = w :=
  BitVec.extractLsb'_append_extractLsb'_eq_extractLsb' (h := by decide) |>.trans (BitVec.extractLsb'_eq_self)

/-- Decode of `{c, b}` reads the two fields. -/
@[simp] theorem decode_opWord (c : StateCode) (b : Byte) : decode (opWord c b) = decodeAt c b := by
  simp [decode]

/-- `0x80` takes START in every state. -/
@[simp] theorem decodeAt_startMarker (c : StateCode) : decodeAt c startMarker = .start c := rfl

/-- `0x40` takes END in every state. -/
@[simp] theorem decodeAt_endMarker (c : StateCode) : decodeAt c endMarker = .endFrame c := rfl

/-- A data byte takes the row of the state code. -/
theorem decodeAt_data {b : Byte} (h : isData b = true) (c : StateCode) :
    decodeAt c b =
      if c = codeIdle then .idleData b
      else if c = codeExpectAddressHigh then .addrHi b
      else if c = codeExpectAddressLow then .addrLo b
      else if c = codeExpectInstance then .instanceOp b
      else if c = codeExpectDataHigh then .dataHi b
      else if c = codeExpectDataLow then .dataLo b
      else .defaultOp (c.extractLsb' 0 1) b := by
  obtain ⟨hs, he⟩ := isData_iff.1 h
  simp [decodeAt, hs, he]

/-- Every byte is a marker or a data byte. -/
theorem byte_cases (b : Byte) : b = startMarker ∨ b = endMarker ∨ isData b = true := by
  by_cases hs : b = startMarker
  · exact .inl hs
  · by_cases he : b = endMarker
    · exact .inr (.inl he)
    · exact .inr (.inr (isData_iff.2 ⟨hs, he⟩))

/-- A state code is one of the six named ones or one of the unnamed 6 and 7. -/
theorem code_cases (c : StateCode) :
    c = codeIdle ∨ c = codeExpectAddressHigh ∨ c = codeExpectAddressLow ∨ c = codeExpectInstance ∨
      c = codeExpectDataHigh ∨ c = codeExpectDataLow ∨ c = 6#3 ∨ c = 7#3 := by
  revert c; decide

end Sys2Proof
end

