-- ==== Sys2Proof/Laws/State.lean ====
section
/-! SUPPORT. What each update of State leaves in each field, and the facts of the reset state. -/

namespace Sys2Proof.Machine

variable (s : State) (c : StateCode) (v : Field) (n : Count) (e : Event) (cs : List InputCycle)

@[simp] theorem State.enter_state : (s.enter c).state = c := rfl
@[simp] theorem State.enter_pending : (s.enter c).pending = s.pending := rfl
@[simp] theorem State.enter_counter : (s.enter c).counter = s.counter := rfl
@[simp] theorem State.enter_event : (s.enter c).event = s.event := rfl
@[simp] theorem State.enter_inputs : (s.enter c).inputs = s.inputs := rfl

@[simp] theorem State.setPending_state : (s.setPending v).state = s.state := rfl
@[simp] theorem State.setPending_pending : (s.setPending v).pending = v := rfl
@[simp] theorem State.setPending_counter : (s.setPending v).counter = s.counter := rfl
@[simp] theorem State.setPending_event : (s.setPending v).event = s.event := rfl
@[simp] theorem State.setPending_inputs : (s.setPending v).inputs = s.inputs := rfl

@[simp] theorem State.clearPending_state : s.clearPending.state = s.state := rfl
@[simp] theorem State.clearPending_pending : s.clearPending.pending = 0#14 := rfl
@[simp] theorem State.clearPending_counter : s.clearPending.counter = s.counter := rfl
@[simp] theorem State.clearPending_event : s.clearPending.event = s.event := rfl
@[simp] theorem State.clearPending_inputs : s.clearPending.inputs = s.inputs := rfl

@[simp] theorem State.setCounter_state : (s.setCounter n).state = s.state := rfl
@[simp] theorem State.setCounter_pending : (s.setCounter n).pending = s.pending := rfl
@[simp] theorem State.setCounter_counter : (s.setCounter n).counter = n := rfl
@[simp] theorem State.setCounter_event : (s.setCounter n).event = s.event := rfl
@[simp] theorem State.setCounter_inputs : (s.setCounter n).inputs = s.inputs := rfl

@[simp] theorem State.emit_state : (s.emit e).state = s.state := rfl
@[simp] theorem State.emit_pending : (s.emit e).pending = s.pending := rfl
@[simp] theorem State.emit_counter : (s.emit e).counter = s.counter := rfl
@[simp] theorem State.emit_event : (s.emit e).event = some e := rfl
@[simp] theorem State.emit_inputs : (s.emit e).inputs = s.inputs := rfl

@[simp] theorem State.silent_state : s.silent.state = s.state := rfl
@[simp] theorem State.silent_pending : s.silent.pending = s.pending := rfl
@[simp] theorem State.silent_counter : s.silent.counter = s.counter := rfl
@[simp] theorem State.silent_event : s.silent.event = none := rfl
@[simp] theorem State.silent_inputs : s.silent.inputs = s.inputs := rfl
@[simp] theorem State.silent_silent : s.silent.silent = s.silent := rfl

@[simp] theorem State.setInputs_state : (s.setInputs cs).state = s.state := rfl
@[simp] theorem State.setInputs_pending : (s.setInputs cs).pending = s.pending := rfl
@[simp] theorem State.setInputs_counter : (s.setInputs cs).counter = s.counter := rfl
@[simp] theorem State.setInputs_event : (s.setInputs cs).event = s.event := rfl
@[simp] theorem State.setInputs_inputs : (s.setInputs cs).inputs = cs := rfl

@[simp] theorem State.resetRegisters_state : s.resetRegisters.state = codeIdle := rfl
@[simp] theorem State.resetRegisters_pending : s.resetRegisters.pending = 0#14 := rfl
@[simp] theorem State.resetRegisters_counter : s.resetRegisters.counter = 0#64 := rfl
@[simp] theorem State.resetRegisters_event : s.resetRegisters.event = none := rfl
@[simp] theorem State.resetRegisters_inputs : s.resetRegisters.inputs = s.inputs := rfl

/-- Two states with equal fields are equal. -/
theorem State.eq_of_fields {s t : State} (hs : s.state = t.state) (hp : s.pending = t.pending)
    (hc : s.counter = t.counter) (he : s.event = t.event) (hi : s.inputs = t.inputs) : s = t := by
  cases s; cases t; simp_all

/-- A cycle of the one producer with a byte offers that byte. -/
@[simp] theorem InputCycle.feed_offers (b : Byte) : (InputCycle.feed b).offers = [b] := rfl

/-- A cycle of the one producer with a byte is no reset cycle. -/
@[simp] theorem InputCycle.feed_rst (b : Byte) : (InputCycle.feed b).rst = false := rfl

/-- An idle cycle offers no byte. -/
@[simp] theorem InputCycle.idle_offers : InputCycle.idle.offers = [] := rfl

/-- An idle cycle is no reset cycle. -/
@[simp] theorem InputCycle.idle_rst : InputCycle.idle.rst = false := rfl

end Sys2Proof.Machine
end

