-- ==== Sys2Proof/Laws/Operations.lean ====
section
/-! SUPPORT. What the operations shared by several meanings leave in each field, and the packer's values. -/

namespace Sys2Proof.Machine

variable (m : State) (b : Byte) (c : StateCode) (reports : Bool)

@[simp] theorem State.loadHighByte_state : (m.loadHighByte b c).state = c := rfl
@[simp] theorem State.loadHighByte_pending : (m.loadHighByte b c).pending = packHigh b := rfl
@[simp] theorem State.loadHighByte_counter : (m.loadHighByte b c).counter = m.counter := rfl
@[simp] theorem State.loadHighByte_event : (m.loadHighByte b c).event = none := rfl
@[simp] theorem State.loadHighByte_inputs : (m.loadHighByte b c).inputs = m.inputs := rfl

@[simp] theorem State.idleByte_state : (m.idleByte reports b).state = m.state := by cases reports <;> rfl
@[simp] theorem State.idleByte_pending : (m.idleByte reports b).pending = m.pending := by cases reports <;> rfl
@[simp] theorem State.idleByte_counter : (m.idleByte reports b).counter = m.counter := by cases reports <;> rfl
@[simp] theorem State.idleByte_event :
    (m.idleByte reports b).event = if reports then some (.unexpectedByte codeIdle b) else none := by
  cases reports <;> rfl
@[simp] theorem State.idleByte_inputs : (m.idleByte reports b).inputs = m.inputs := by cases reports <;> rfl

/-- A byte at the width of a field keeps its value. -/
theorem zextField_toNat : (zextField b).toNat = b.toNat := by
  have := b.isLt
  simp only [zextField, BitVec.toNat_setWidth]
  omega

/-- A high byte is loaded as 64 times its value: no bit is lost at 14 bits. -/
theorem packHigh_toNat : (packHigh b).toNat = b.toNat * 64 := by
  have := b.isLt
  simp only [packHigh, fieldShift, BitVec.toNat_shiftLeft, zextField_toNat, Nat.shiftLeft_eq]
  omega

/-- A low byte is combined by OR of the values. -/
theorem packLow_toNat (p : Field) : (packLow p b).toNat = p.toNat ||| b.toNat := by
  simp only [packLow, BitVec.toNat_or, zextField_toNat]

/-- The increment is modulo 2^64. -/
theorem nextCount_toNat (n : Count) : (nextCount n).toNat = (n.toNat + 1) % 2 ^ 64 := by
  simp [nextCount]

end Sys2Proof.Machine
end

