-- ==== Sys2Proof/Laws/PerInstr.lean ====
section
/-! SUPPORT. The family `EncodedFields`: where the operand fields of each operation stand in its word, and the mask
and pattern of its row of spec/opcode_table.json. -/

namespace Sys2Proof.Laws.EncodedFields

/-- The code an operation's word carries in bits 10 to 8. -/
def codeField : Instr → StateCode
  | .start s => s
  | .endFrame s => s
  | .idleData _ => codeIdle
  | .addrHi _ => codeExpectAddressHigh
  | .addrLo _ => codeExpectAddressLow
  | .instanceOp _ => codeExpectInstance
  | .dataHi _ => codeExpectDataHigh
  | .dataLo _ => codeExpectDataLow
  | .defaultOp s _ => 0b11#2 ++ s

/-- The byte an operation's word carries in bits 7 to 0. -/
def byteField : Instr → Byte
  | .start _ => startMarker
  | .endFrame _ => endMarker
  | .idleData b => b
  | .addrHi b => b
  | .addrLo b => b
  | .instanceOp b => b
  | .dataHi b => b
  | .dataLo b => b
  | .defaultOp _ b => b

/-- The word of an operation is `{code, byte}` for the operation's own code and byte (30_encoding.md R60). -/
def Statement (i : Instr) : Prop := (encode i).code = codeField i ∧ (encode i).byte = byteField i

theorem start (s : StateCode) : Statement (.start s) := ⟨opWord_code s _, opWord_byte s _⟩
theorem endFrame (s : StateCode) : Statement (.endFrame s) := ⟨opWord_code s _, opWord_byte s _⟩
theorem idleData (b : Byte) : Statement (.idleData b) := ⟨opWord_code _ b, opWord_byte _ b⟩
theorem addrHi (b : Byte) : Statement (.addrHi b) := ⟨opWord_code _ b, opWord_byte _ b⟩
theorem addrLo (b : Byte) : Statement (.addrLo b) := ⟨opWord_code _ b, opWord_byte _ b⟩
theorem instanceOp (b : Byte) : Statement (.instanceOp b) := ⟨opWord_code _ b, opWord_byte _ b⟩
theorem dataHi (b : Byte) : Statement (.dataHi b) := ⟨opWord_code _ b, opWord_byte _ b⟩
theorem dataLo (b : Byte) : Statement (.dataLo b) := ⟨opWord_code _ b, opWord_byte _ b⟩
theorem defaultOp (s : BitVec 1) (b : Byte) : Statement (.defaultOp s b) :=
  ⟨opWord_code (0b11#2 ++ s) b, opWord_byte (0b11#2 ++ s) b⟩

end Sys2Proof.Laws.EncodedFields
end

