-- ==== Sys2Proof/Laws/Step.lean ====
section
/-! SUPPORT. What a cycle demands and what a step can do, said once. -/

namespace Sys2Proof.Machine

/-- With no cycle listed, the demand is an idle cycle. -/
theorem fetch_nil {s : State} (h : s.inputs = []) : fetch s = .noOperation s.silent := by
  simp [fetch, h]

/-- With a cycle listed, the demand is that cycle's. -/
theorem fetch_cons {s : State} {c : InputCycle} {rest : List InputCycle} (h : s.inputs = c :: rest) :
    fetch s = fetchCycle c (s.setInputs rest) := by
  simp [fetch, h]

/-- Everything a step that answers a next state can have done: an idle cycle at the end of the list, a reset cycle,
an idle cycle, or the operation of the one byte fed. -/
theorem step_next_cases {s t : State} (h : step s = .next t) :
    (s.inputs = [] ∧ t = s.silent) ∨
    ∃ c rest, s.inputs = c :: rest ∧
      ((c.rst = true ∧ t = (s.setInputs rest).resetRegisters) ∨
       (c.rst = false ∧ c.offers = [] ∧ t = (s.setInputs rest).silent) ∨
       (∃ b, c.rst = false ∧ c.offers = [b] ∧ exec (decodeAt s.state b) (s.setInputs rest) = .next t)) := by
  cases hi : s.inputs with
  | nil =>
    left
    simp [step, fetch_nil hi] at h
    exact ⟨rfl, h.symm⟩
  | cons c rest =>
    refine .inr ⟨c, rest, rfl, ?_⟩
    simp only [step, fetch_cons hi, fetchCycle] at h
    cases hr : c.rst with
    | true =>
      simp [hr] at h
      exact .inl ⟨rfl, h.symm⟩
    | false =>
      simp only [hr] at h
      match ho : c.offers with
      | [] =>
        simp [ho] at h
        exact .inr (.inl ⟨rfl, rfl, h.symm⟩)
      | [b] =>
        simp [ho] at h
        exact .inr (.inr ⟨b, rfl, rfl, h⟩)
      | _ :: _ :: _ => simp [ho] at h

end Sys2Proof.Machine
end

