-- ==== Sys2Proof/Laws/Run.lean ====
section
/-! SUPPORT. One cycle at a time of a run, of its observation, and of a byte stream. -/

namespace Sys2Proof.Machine

/-- A run goes on after a step that answers a next state. -/
theorem core_run_succ {s t : State} (k : Nat) (h : step s = .next t) : core.run (k + 1) s = core.run k t := by
  have hc : core.step s = .next t := h
  simp only [Host.Core.run, hc]

/-- The observation of a run goes on after a step that answers a next state, with that step's event in front. -/
theorem observe_succ {s t : State} (k : Nat) (h : step s = .next t) :
    observe (k + 1) s = (observe k t).map fun r => (r.1, t.event.toList ++ r.2) := by
  simp only [observe, h]

/-- A stream goes on after a byte whose operation answers a next state, with that operation's event in front. -/
theorem feedAll_cons {s t : State} {b : Byte} (bs : List Byte) (h : feed s b = .next t) :
    feedAll s (b :: bs) = (feedAll t bs).map fun r => (r.1, t.event.toList ++ r.2) := by
  simp only [feedAll, h]

/-- `Feed` is the operation decoded from the state code and the byte. -/
theorem feed_eq (s : State) (b : Byte) : feed s b = exec (decodeAt s.state b) s := by
  simp [feed]

end Sys2Proof.Machine
end

