-- ==== Sys2Proof/Tests/Slice0.lean ====
section
/-! SUPPORT. The model's own tests: ill-formed terms that the check refuses; words written out from the patterns of
spec/opcode_table.json; single steps whose expected results are the vectors of spec/95_test_vectors.md; and a witness
for the hypotheses of each statement. -/

namespace Sys2Proof.Tests

open Sys2Proof.Machine

/-- A machine with the given registers and input cycles and no event on its ports. -/
def machineAt (c : StateCode) (p : Field) (n : Count) (cs : List InputCycle) : State := ⟨c, p, n, none, cs⟩

/-- A machine with the given registers whose next cycle feeds `b`. -/
def fedWith (c : StateCode) (p : Field) (n : Count) (b : Byte) : State := machineAt c p n [.feed b]

/-- A cycle in which two producers feed. -/
def twoProducers : InputCycle := ⟨false, [⟨true, 0x01#8⟩, ⟨true, 0x02#8⟩]⟩

/-! ## WellFormed refuses a marker as a data byte -/

theorem smoke_idleData_markers :
    (Instr.idleData 0x80#8).wellFormed = false ∧ (Instr.idleData 0x40#8).wellFormed = false := by decide
theorem smoke_addrHi_markers :
    (Instr.addrHi 0x80#8).wellFormed = false ∧ (Instr.addrHi 0x40#8).wellFormed = false := by decide
theorem smoke_addrLo_markers :
    (Instr.addrLo 0x80#8).wellFormed = false ∧ (Instr.addrLo 0x40#8).wellFormed = false := by decide
theorem smoke_instanceOp_markers :
    (Instr.instanceOp 0x80#8).wellFormed = false ∧ (Instr.instanceOp 0x40#8).wellFormed = false := by decide
theorem smoke_dataHi_markers :
    (Instr.dataHi 0x80#8).wellFormed = false ∧ (Instr.dataHi 0x40#8).wellFormed = false := by decide
theorem smoke_dataLo_markers :
    (Instr.dataLo 0x80#8).wellFormed = false ∧ (Instr.dataLo 0x40#8).wellFormed = false := by decide
theorem smoke_defaultOp_markers :
    (Instr.defaultOp 0#1 0x80#8).wellFormed = false ∧ (Instr.defaultOp 1#1 0x40#8).wellFormed = false := by decide

/-! ## Decoding: words written out bit by bit from the patterns of the table -/

/-- `sss10000000`, with 95_test_vectors.md L2.1 rows 3 and 8. -/
theorem test_decode_start :
    decode 0b010_10000000#11 = .start 2#3 ∧ decode 0b111_10000000#11 = .start 7#3 := by decide
/-- `sss01000000`, with L2.2 rows 1 and 7. -/
theorem test_decode_end :
    decode 0b000_01000000#11 = .endFrame 0#3 ∧ decode 0b110_01000000#11 = .endFrame 6#3 := by decide
/-- `000bbbbbbbb`, with L2.7 rows 2 and 6. -/
theorem test_decode_idleData :
    decode 0b000_01010101#11 = .idleData 0x55#8 ∧ decode 0b000_11000000#11 = .idleData 0xC0#8 := by decide
/-- `001bbbbbbbb`, with L2.3 rows 6 and 8. -/
theorem test_decode_addrHi :
    decode 0b001_01111111#11 = .addrHi 0x7F#8 ∧ decode 0b001_11000000#11 = .addrHi 0xC0#8 := by decide
/-- `010bbbbbbbb`, with L2.4 rows 2 and 12. -/
theorem test_decode_addrLo :
    decode 0b010_00000010#11 = .addrLo 0x02#8 ∧ decode 0b010_11111111#11 = .addrLo 0xFF#8 := by decide
/-- `011bbbbbbbb`, with L2.5 rows 1 and 6. -/
theorem test_decode_instanceOp :
    decode 0b011_00000000#11 = .instanceOp 0x00#8 ∧ decode 0b011_10000001#11 = .instanceOp 0x81#8 := by decide
/-- `100bbbbbbbb`, with L2.6 rows 1 and 2. -/
theorem test_decode_dataHi :
    decode 0b100_00000000#11 = .dataHi 0x00#8 ∧ decode 0b100_11111111#11 = .dataHi 0xFF#8 := by decide
/-- `101bbbbbbbb`, with L2.6 rows 3 and 7. -/
theorem test_decode_dataLo :
    decode 0b101_00010000#11 = .dataLo 0x10#8 ∧ decode 0b101_00000001#11 = .dataLo 0x01#8 := by decide
/-- `11sbbbbbbbb`, with L2.8 rows 1 and 2. -/
theorem test_decode_defaultOp :
    decode 0b110_00010010#11 = .defaultOp 0#1 0x12#8 ∧ decode 0b111_11111111#11 = .defaultOp 1#1 0xFF#8 := by decide
/-- A word as the table numbers its bits, and one with a bit above bit 10. -/
theorem test_decodeTableWord :
    decodeTableWord 16 0x1FF = some (.addrHi 0xFF#8) ∧ decodeTableWord 16 0x800 = none := by decide

/-! ## Single steps (95_test_vectors.md L2) -/

/-- L2.1 row 7: START in code 6. -/
theorem test_step_start :
    nextState (step (fedWith 6#3 0x0123#14 7#64 0x80#8)) = some ⟨1#3, 0#14, 7#64, some .frameStarted, []⟩ := by decide
/-- L2.2 row 10: END in the middle of a field, at the top of the counter. -/
theorem test_step_end_wraps :
    nextState (step (fedWith 2#3 0x0040#14 18446744073709551615#64 0x40#8)) =
      some ⟨0#3, 0#14, 0#64, some (.frameEnded 0#64), []⟩ := by decide
/-- L2.2 row 6: END discards the partial field. -/
theorem test_step_end_discards :
    nextState (step (fedWith 5#3 0x3FC0#14 99#64 0x40#8)) =
      some ⟨0#3, 0#14, 100#64, some (.frameEnded 100#64), []⟩ := by decide
/-- L2.3 row 8: a high byte that shares bits with both markers. -/
theorem test_step_addrHi :
    nextState (step (fedWith 1#3 0#14 0#64 0xC0#8)) = some ⟨2#3, 0x3000#14, 0#64, none, []⟩ := by decide
/-- L2.4 row 7: OR, not addition. -/
theorem test_step_addrLo :
    nextState (step (fedWith 2#3 0x0080#14 0#64 0xC0#8)) =
      some ⟨3#3, 0#14, 0#64, some (.addressReady 0xC0#14), []⟩ := by decide
/-- L2.5 row 8. -/
theorem test_step_instanceOp :
    nextState (step (fedWith 3#3 0#14 0#64 0xFF#8)) = some ⟨4#3, 0#14, 0#64, some (.instanceReady 0xFF#8), []⟩ := by
  decide
/-- L2.6 row 2. -/
theorem test_step_dataHi :
    nextState (step (fedWith 4#3 0#14 3#64 0xFF#8)) = some ⟨5#3, 0x3FC0#14, 3#64, none, []⟩ := by decide
/-- L2.6 row 7: the next state is `ExpectAddressHigh`. -/
theorem test_step_dataLo :
    nextState (step (fedWith 5#3 0x0800#14 3#64 0x01#8)) =
      some ⟨1#3, 0#14, 3#64, some (.dataReady 0x801#14), []⟩ := by decide
/-- L2.7 row 6. -/
theorem test_step_idleData :
    nextState (step (fedWith 0#3 0#14 3#64 0xC0#8)) =
      some ⟨0#3, 0#14, 3#64, some (.unexpectedByte 0#3 0xC0#8), []⟩ := by decide
/-- L2.8 row 1: `pending` is kept. -/
theorem test_step_defaultOp :
    nextState (step (fedWith 6#3 0x0100#14 2#64 0x12#8)) =
      some ⟨6#3, 0x0100#14, 2#64, some (.unexpectedByte 6#3 0x12#8), []⟩ := by decide
/-- 70_reset_and_hazards.md R115: reset wins over the byte of the same cycle. -/
theorem test_step_reset_wins :
    nextState (step (machineAt 5#3 0x0040#14 9#64 [⟨true, [⟨true, 0x40#8⟩]⟩])) = some State.reset := by decide
/-- 30_encoding.md R76 and R77, on the event of L2.8 row 2. -/
theorem test_ports_unexpected :
    drive (some (.unexpectedByte 7#3 0xFF#8)) = ⟨true, 6#3, 0xFF#64, 7#3⟩ := by decide
/-- 30_encoding.md R84, on 0x42 = 66 in base 10. -/
theorem test_render_address :
    renderEvent ⟨10, .lower, none, true, true, false⟩ (.addressReady 0x42#14) =
      [.line ['A', 'd', 'd', 'r', 'e', 's', 's', ' ', '6', '6', ' ', ' ', ' ', ' ', ' ', ' ', ' ', ' ', ' ', ' ']] := by
  decide
/-- 30_encoding.md R82, on the first FRAME of program P1 (95_test_vectors.md). -/
theorem test_frame_bytes :
    frameBytes 0x042 0x05#8 0x010 = [0x80#8, 0x01#8, 0x02#8, 0x05#8, 0x00#8, 0x10#8, 0x40#8] := by decide

/-! ## Witnesses: the hypotheses of each statement can be met -/

theorem witness_DecodeOfEncodeIsTheOperation :
    (Instr.start 7#3).wellFormed = true ∧ (Instr.endFrame 0#3).wellFormed = true ∧
      (Instr.idleData 0x00#8).wellFormed = true ∧ (Instr.addrHi 0xFF#8).wellFormed = true ∧
      (Instr.addrLo 0x3F#8).wellFormed = true ∧ (Instr.instanceOp 0x41#8).wellFormed = true ∧
      (Instr.dataHi 0x7F#8).wellFormed = true ∧ (Instr.dataLo 0x81#8).wellFormed = true ∧
      (Instr.defaultOp 1#1 0xFF#8).wellFormed = true := by decide

theorem witness_DecodeTakesFirstRowOfPriorityTable :
    (0x3F#8 ≠ 0x80#8 ∧ 0x3F#8 ≠ 0x40#8) ∧ (0x41#8 ≠ 0x80#8 ∧ 0x41#8 ≠ 0x40#8) ∧
      (0x7F#8 ≠ 0x80#8 ∧ 0x7F#8 ≠ 0x40#8) ∧ (0x81#8 ≠ 0x80#8 ∧ 0x81#8 ≠ 0x40#8) ∧
      (6#3 = 6#3 ∨ 6#3 = 7#3) ∧ (7#3 = 6#3 ∨ 7#3 = 7#3) := by decide

theorem witness_NumbersAboveElevenBitsAreRejected :
    2047 % 2 ^ 16 < 2048 ∧ 2048 ≤ 2048 % 2 ^ 16 := by decide

theorem witness_StepRunsDecodedOperation :
    (fedWith 6#3 0#14 0#64 0x12#8).inputs = .feed 0x12#8 :: [] ∧ (InputCycle.feed 0x12#8).rst = false ∧
      (InputCycle.feed 0x12#8).offers = [0x12#8] := by decide

theorem witness_StepIsTheReferenceListing :
    (fedWith 2#3 0x3FC0#14 0#64 0xFF#8).inputs = .feed 0xFF#8 :: [] ∧ (InputCycle.feed 0xFF#8).rst = false ∧
      (InputCycle.feed 0xFF#8).offers = [0xFF#8] := by decide

theorem witness_PlacedWordRunsNext : decodeTableWord 16 0x7FF = some (.defaultOp 1#1 0xFF#8) := by decide

theorem witness_AddressHighByteResult : 0x41 ≤ (0x41#8).toNat := by decide

theorem witness_DataHighByteResult : 0x41 ≤ (0xFF#8).toNat := by decide

theorem witness_TwoByteFieldPacking :
    (machineAt 1#3 0#14 0#64 []).state = 1#3 ∧ (machineAt 4#3 0#14 0#64 []).state = 4#3 ∧
      0xFF#8 ≠ 0x80#8 ∧ 0xFF#8 ≠ 0x40#8 ∧ 0x7F#8 ≠ 0x80#8 ∧ 0x7F#8 ≠ 0x40#8 := by decide

theorem witness_FrameAndFieldsRoundTrip :
    0xFFF < 0x1000 ∧ 0 < 0x1000 ∧ 0xFF#8 ≠ 0x80#8 ∧ 0xFF#8 ≠ 0x40#8 ∧
      (machineAt 1#3 0#14 0#64 []).state = 1#3 := by decide

theorem witness_OnlyEndAndResetWriteCounter_exec :
    (∃ t, exec (.endFrame 2#3) (machineAt 2#3 0x40#14 5#64 []) = .next t) ∧ (Instr.endFrame 2#3).kind = .END ∧
      (∃ t, exec (.start 2#3) (machineAt 2#3 0x40#14 5#64 []) = .next t) ∧ (Instr.start 2#3).kind ≠ .END :=
  ⟨⟨_, rfl⟩, rfl, ⟨_, rfl⟩, by decide⟩

theorem witness_OnlyEndAndResetWriteCounter_step :
    (∃ t, step (machineAt 2#3 0x40#14 5#64 [.reset]) = .next t) ∧
      (machineAt 2#3 0x40#14 5#64 [.reset]).resetNext = true ∧
      (∃ t, step (fedWith 2#3 0x40#14 5#64 0x40#8) = .next t) ∧
      (fedWith 2#3 0x40#14 5#64 0x40#8).fedByte = some 0x40#8 ∧
      (∃ t, step (fedWith 2#3 0x40#14 5#64 0xC0#8) = .next t) ∧
      (fedWith 2#3 0x40#14 5#64 0xC0#8).resetNext = false ∧
      (fedWith 2#3 0x40#14 5#64 0xC0#8).fedByte ≠ some 0x40#8 :=
  ⟨⟨_, rfl⟩, rfl, ⟨_, rfl⟩, rfl, ⟨_, rfl⟩, rfl, by decide⟩

theorem witness_FrameEndedCarriesUpdatedCount :
    (∃ t, step (fedWith 0#3 0#14 41#64 0x40#8) = .next t ∧ t.event = some (.frameEnded 42#64)) ∧
      0x40#8 ∉ [0x80#8, 0x01#8] :=
  ⟨⟨_, rfl, rfl⟩, by decide⟩

theorem witness_UnexpectedByteReportsStateAndByte :
    (∃ t, step (fedWith 0#3 0#14 0#64 0x55#8) = .next t ∧ t.event = some (.unexpectedByte 0#3 0x55#8)) ∧
      (fedWith 6#3 0#14 0#64 0xFF#8).fedByte = some 0xFF#8 ∧ (fedWith 6#3 0#14 0#64 0xFF#8).state = 6#3 ∧
      (fedWith 7#3 0#14 0#64 0x00#8).fedByte = some 0x00#8 ∧ (fedWith 7#3 0#14 0#64 0x00#8).state = 7#3 :=
  ⟨⟨_, rfl, rfl⟩, rfl, rfl, rfl, rfl⟩

theorem witness_EventAgreesWithRegistersAfterStep :
    ∃ t, step (fedWith 5#3 0x40#14 0#64 0x02#8) = .next t ∧ t.event = some (.dataReady 0x42#14) :=
  ⟨_, rfl, rfl⟩

theorem witness_PortsCarryTheEvent : (drive (some (.unexpectedByte 6#3 0x12#8))).evState ≠ 0#3 := by decide

theorem witness_RenderedLinesOfEvents :
    (⟨10, .lower, none, true, true, false⟩ : Config.RenderParams).hexPad = none ∧
      (⟨10, .lower, none, true, true, false⟩ : Config.RenderParams).hexCase = .lower ∧
      (⟨16, .upper, none, true, true, true⟩ : Config.RenderParams).hexCase = .upper ∧
      (⟨10, .upper, some '0', true, false, false⟩ : Config.RenderParams).hexPad = some '0' := by decide

theorem witness_ResetCycleWinsOverBytes :
    (machineAt 5#3 0x40#14 9#64 [⟨true, [⟨true, 0x40#8⟩]⟩]).inputs = ⟨true, [⟨true, 0x40#8⟩]⟩ :: [] := by decide

theorem witness_StateAndCounterAfterReset : 0x40#8 ∉ [0x80#8, 0x3F#8, 0x41#8] := by decide

theorem witness_IdleCycleHoldsRegisters :
    (machineAt 2#3 0x40#14 9#64 [.idle]).inputs = .idle :: [] ∧ InputCycle.idle.rst = false ∧
      InputCycle.idle.offers = [] := by decide

theorem witness_EndOfStreamChangesNothing : (machineAt 2#3 0x0FC0#14 0#64 []).inputs = [] := by decide

theorem witness_ConcurrentFeedingIsRefused :
    twoProducers.rst = false ∧ 2 ≤ twoProducers.offers.length ∧
      step (machineAt 0#3 0#14 0#64 [twoProducers]) = .refused .concurrentFeed :=
  ⟨rfl, by decide, rfl⟩

theorem witness_EveryByteCompletesWithoutException :
    (fedWith 7#3 0#14 0#64 0x80#8).inputs = .feed 0x80#8 :: [] ∧ (InputCycle.feed 0x80#8).rst = false ∧
      (InputCycle.feed 0x80#8).offers = [0x80#8] := by decide

theorem witness_LawfulRunsNeverStop :
    (machineAt 0#3 0#14 0#64 [.feed 0x80#8, .idle, .reset, ⟨true, twoProducers.producers⟩]).Lawful := by decide

theorem witness_StepTakesExactlyOneInputCycle :
    (∃ t, step (machineAt 3#3 0#14 0#64 [.feed 0x05#8, .idle]) = .next t) ∧
      (∃ t, exec (.dataHi 0x3F#8) (machineAt 4#3 0#14 0#64 [.idle]) = .next t) :=
  ⟨⟨_, rfl⟩, ⟨_, rfl⟩⟩

theorem witness_StepKeepsReachableInvariant :
    (fedWith 2#3 0x3FC0#14 0#64 0xFF#8).Inv ∧ ∃ t, step (fedWith 2#3 0x3FC0#14 0#64 0xFF#8) = .next t :=
  ⟨⟨by decide, by decide, 0xFF#8, by decide⟩, ⟨_, rfl⟩⟩

theorem witness_StatesAreEnteredOnlyInOrder :
    (∃ t, step (fedWith 3#3 0#14 0#64 0x40#8) = .next t ∧ t.state ≠ 3#3 ∧ t.state = 0#3) ∧
      (∃ t, step (fedWith 5#3 0#14 0#64 0x10#8) = .next t ∧ t.state ≠ 5#3 ∧ t.state = 1#3) ∧
      (∃ t, step (fedWith 1#3 0#14 0#64 0x10#8) = .next t ∧ t.state ≠ 1#3 ∧ t.state.toNat = 2) ∧
      (∃ t, step (fedWith 4#3 0#14 0#64 0x10#8) = .next t ∧ t.state ≠ 4#3 ∧ t.state.toNat = 5) :=
  ⟨⟨_, rfl, by decide, rfl⟩, ⟨_, rfl, by decide, rfl⟩, ⟨_, rfl, by decide, rfl⟩, ⟨_, rfl, by decide, rfl⟩⟩

theorem witness_StatesAreEnteredOnlyInOrder_start_and_reset :
    (∃ t, step (fedWith 7#3 0#14 0#64 0x80#8) = .next t ∧ t.state ≠ 7#3 ∧ t.state = 1#3) ∧
      (∃ t, step (machineAt 6#3 0#14 0#64 [.reset]) = .next t ∧ t.state ≠ 6#3 ∧ t.state = 0#3) :=
  ⟨⟨_, rfl, by decide, rfl⟩, ⟨_, rfl, by decide, rfl⟩⟩

theorem witness_PendingOutsideFieldsIsUnobservable :
    PendingEquiv (fedWith 0#3 0x0123#14 0#64 0x80#8) (fedWith 0#3 0#14 0#64 0x80#8) ∧
      PendingEquiv (fedWith 2#3 0x0040#14 0#64 0x02#8) (fedWith 2#3 0x0040#14 0#64 0x02#8) := by decide

theorem witness_StartResynchronises :
    (machineAt 2#3 0x3FC0#14 7#64 []).counter = (machineAt 6#3 0#14 7#64 []).counter := by decide

theorem witness_CyclesCarryOneFeedPerByte :
    (machineAt 1#3 0#14 0#64 [.feed 0x01#8, .idle, .feed 0x02#8, .reset]).inputs =
        [.feed 0x01#8, .idle, .feed 0x02#8] ++ [.reset] ∧
      ∀ c ∈ [InputCycle.feed 0x01#8, .idle, .feed 0x02#8], c.rst = false ∧ c.offers.length ≤ 1 := by decide

end Sys2Proof.Tests
end

/-! # Facts the statements of 10_state.md share

The row an operation word takes, the state an operation answers, and what a cycle does for each kind of input cycle. -/

namespace Sys2Proof

/-- The rows of 30_encoding.md R61 with their conditions: the operation word `{c, b}` may select `i`. -/
inductive Selects (c : StateCode) (b : Byte) : Instr → Prop where
  | start (hb : b = startMarker) : Selects c b (.start c)
  | endFrame (hb : b = endMarker) : Selects c b (.endFrame c)
  | idleData (hb : isData b = true) (hc : c = codeIdle) : Selects c b (.idleData b)
  | addrHi (hb : isData b = true) (hc : c = codeExpectAddressHigh) : Selects c b (.addrHi b)
  | addrLo (hb : isData b = true) (hc : c = codeExpectAddressLow) : Selects c b (.addrLo b)
  | instanceOp (hb : isData b = true) (hc : c = codeExpectInstance) : Selects c b (.instanceOp b)
  | dataHi (hb : isData b = true) (hc : c = codeExpectDataHigh) : Selects c b (.dataHi b)
  | dataLo (hb : isData b = true) (hc : c = codeExpectDataLow) : Selects c b (.dataLo b)
  | defaultOp (hb : isData b = true) (hc : c = 6#3 ∨ c = 7#3) : Selects c b (.defaultOp (c.extractLsb' 0 1) b)

/-- The decoder selects a row whose condition holds. -/
theorem selects_decodeAt (c : StateCode) (b : Byte) : Selects c b (decodeAt c b) := by
  rcases byte_cases b with hb | hb | hb
  · subst hb; exact .start rfl
  · subst hb; exact .endFrame rfl
  · rw [decodeAt_data hb]
    rcases code_cases c with rfl | rfl | rfl | rfl | rfl | rfl | rfl | rfl
    · exact .idleData hb rfl
    · exact .addrHi hb rfl
    · exact .addrLo hb rfl
    · exact .instanceOp hb rfl
    · exact .dataHi hb rfl
    · exact .dataLo hb rfl
    · exact .defaultOp hb (.inl rfl)
    · exact .defaultOp hb (.inr rfl)

/-- The operation selected is END exactly for the byte `0x40`. -/
theorem Selects.kind_eq_END_iff {c : StateCode} {b : Byte} {i : Instr} (hsel : Selects c b i) :
    i.kind = .END ↔ b = endMarker := by
  cases hsel with
  | start hb => simp [Instr.kind, hb, startMarker, endMarker]
  | endFrame hb => simp [Instr.kind, hb]
  | idleData hb _ | addrHi hb _ | addrLo hb _ | instanceOp hb _ | dataHi hb _ | dataLo hb _ | defaultOp hb _ =>
    simp [Instr.kind, (isData_iff.1 hb).2]

end Sys2Proof

namespace Sys2Proof.Machine

/-! ## The state an operation answers -/

/-- The state an operation answers; every operation answers one (`exec_eq_next`). -/
def opResult (i : Instr) (m : State) : State := (nextState (exec i m)).getD m

/-- Every operation completes (60_exceptions.md R95). -/
theorem exec_eq_next (i : Instr) (m : State) : exec i m = .next (opResult i m) := by
  cases i <;> rfl

/-- The state an operation answers is the only one. -/
theorem eq_opResult_of_exec {i : Instr} {m t : State} (h : exec i m = .next t) : t = opResult i m := by
  rw [exec_eq_next] at h
  exact (Host.Outcome.next.inj h).symm

section
variable (c : StateCode) (k : BitVec 1) (b : Byte) (m : State)

@[simp] theorem opResult_start :
    opResult (.start c) m = (m.enter codeExpectAddressHigh).clearPending.emit .frameStarted := rfl
@[simp] theorem opResult_endFrame :
    opResult (.endFrame c) m =
      ((m.setCounter (nextCount m.counter)).enter codeIdle).clearPending.emit (.frameEnded (nextCount m.counter)) := rfl
@[simp] theorem opResult_idleData : opResult (.idleData b) m = m.emit (.unexpectedByte codeIdle b) := rfl
@[simp] theorem opResult_addrHi : opResult (.addrHi b) m = m.loadHighByte b codeExpectAddressLow := rfl
@[simp] theorem opResult_addrLo :
    opResult (.addrLo b) m =
      (m.clearPending.enter codeExpectInstance).emit (.addressReady (packLow m.pending b)) := rfl
@[simp] theorem opResult_instanceOp :
    opResult (.instanceOp b) m = (m.enter codeExpectDataHigh).emit (.instanceReady b) := rfl
@[simp] theorem opResult_dataHi : opResult (.dataHi b) m = m.loadHighByte b codeExpectDataLow := rfl
@[simp] theorem opResult_dataLo :
    opResult (.dataLo b) m =
      (m.clearPending.enter codeExpectAddressHigh).emit (.dataReady (packLow m.pending b)) := rfl
@[simp] theorem opResult_defaultOp : opResult (.defaultOp k b) m = m.emit (.unexpectedByte m.state b) := rfl

end

/-- No operation touches the input cycles. -/
@[simp] theorem opResult_inputs (i : Instr) (m : State) : (opResult i m).inputs = m.inputs := by
  cases i <;> rfl

/-- END counts (10_state.md R30). -/
theorem opResult_counter_of_END {i : Instr} (hi : i.kind = .END) (m : State) :
    (opResult i m).counter = nextCount m.counter := by
  cases i with
  | endFrame c => simp
  | _ => cases hi

/-- No operation but END touches the counter (10_state.md R30). -/
theorem opResult_counter_of_ne_END {i : Instr} (hi : i.kind ≠ .END) (m : State) :
    (opResult i m).counter = m.counter := by
  cases i with
  | endFrame c => exact absurd rfl hi
  | _ => rfl

/-- A byte counts exactly when it is `0x40`. -/
theorem opResult_decodeAt_counter (c : StateCode) (b : Byte) (m : State) :
    (opResult (decodeAt c b) m).counter = if b = endMarker then nextCount m.counter else m.counter := by
  have hEND := (selects_decodeAt c b).kind_eq_END_iff
  split
  next hb => exact opResult_counter_of_END (hEND.2 hb) m
  next hb => exact opResult_counter_of_ne_END (mt hEND.1 hb) m

/-! ## A step for each kind of input cycle -/

/-- Every input cycle is one of five kinds: none listed, reset, idle, one byte fed, or concurrent feeding. -/
theorem inputCycle_cases (cs : List InputCycle) :
    cs = [] ∨ ∃ c rest, cs = c :: rest ∧
      (c.rst = true ∨ c.rst = false ∧ (c.offers = [] ∨ (∃ b, c.offers = [b]) ∨ 2 ≤ c.offers.length)) := by
  cases cs with
  | nil => exact .inl rfl
  | cons c rest =>
    refine .inr ⟨c, rest, rfl, ?_⟩
    cases c.rst with
    | true => exact .inl rfl
    | false =>
      refine .inr ⟨rfl, ?_⟩
      match c.offers with
      | [] => exact .inl rfl
      | [b] => exact .inr (.inl ⟨b, rfl⟩)
      | _ :: _ :: _ => exact .inr (.inr (by simp))

section
variable {s : State} {c : InputCycle} {rest : List InputCycle} {b : Byte}

/-- With no cycle listed, the step is an idle cycle. -/
theorem step_of_inputs_nil (hi : s.inputs = []) : step s = .next s.silent := by
  simp [step, fetch_nil hi]

/-- A reset cycle loads the initial registers. -/
theorem step_of_rst (hi : s.inputs = c :: rest) (hr : c.rst = true) :
    step s = .next (s.setInputs rest).resetRegisters := by
  simp [step, fetch_cons hi, fetchCycle, hr]

/-- An idle cycle holds the registers. -/
theorem step_of_offers_nil (hi : s.inputs = c :: rest) (hr : c.rst = false) (ho : c.offers = []) :
    step s = .next (s.setInputs rest).silent := by
  simp [step, fetch_cons hi, fetchCycle, hr, ho]

/-- A cycle that feeds one byte runs the operation of the state code and the byte. -/
theorem step_of_offers_singleton (hi : s.inputs = c :: rest) (hr : c.rst = false) (ho : c.offers = [b]) :
    step s = .next (opResult (decodeAt s.state b) (s.setInputs rest)) := by
  simp [step, fetch_cons hi, fetchCycle, hr, ho, exec_eq_next]

/-- A cycle in which two producers feed is refused. -/
theorem step_of_two_offers (hi : s.inputs = c :: rest) (hr : c.rst = false) (ho : 2 ≤ c.offers.length) :
    step s = .refused .concurrentFeed := by
  match h : c.offers with
  | [] => simp [h] at ho
  | [_] => simp [h] at ho
  | _ :: _ :: _ => simp [step, fetch_cons hi, fetchCycle, hr, h]

end

/-! ## The kind of the next cycle in the terms `resetNext` and `fedByte` -/

section
variable {s : State} {c : InputCycle} {rest : List InputCycle} {b : Byte}

theorem State.resetNext_of_inputs_nil (hi : s.inputs = []) : s.resetNext = false := by
  simp [State.resetNext, hi]

theorem State.resetNext_of_inputs_cons (hi : s.inputs = c :: rest) : s.resetNext = c.rst := by
  simp [State.resetNext, hi]

theorem State.fedByte_of_inputs_nil (hi : s.inputs = []) : s.fedByte = none := by
  simp [State.fedByte, hi]

theorem State.fedByte_of_rst (hi : s.inputs = c :: rest) (hr : c.rst = true) : s.fedByte = none := by
  simp [State.fedByte, hi, hr]

theorem State.fedByte_of_offers_nil (hi : s.inputs = c :: rest) (ho : c.offers = []) : s.fedByte = none := by
  simp [State.fedByte, hi, ho]

theorem State.fedByte_of_offers_singleton (hi : s.inputs = c :: rest) (hr : c.rst = false) (ho : c.offers = [b]) :
    s.fedByte = some b := by
  simp [State.fedByte, hi, hr, ho]

end

/-- A completed step is a reset cycle, an idle one, or the operation of the byte fed: the cases of
`step_next_cases` in the terms `resetNext` and `fedByte`. -/
theorem step_next_kinds {s t : State} (h : step s = .next t) :
    (s.resetNext = true ∧ s.fedByte = none ∧ t = (s.setInputs s.inputs.tail).resetRegisters) ∨
    (s.resetNext = false ∧ s.fedByte = none ∧ t = (s.setInputs s.inputs.tail).silent) ∨
    (∃ b, s.resetNext = false ∧ s.fedByte = some b ∧
      t = opResult (decodeAt s.state b) (s.setInputs s.inputs.tail)) := by
  rcases step_next_cases h with ⟨hi, rfl⟩ | ⟨c, rest, hi, hcycle⟩
  · refine .inr (.inl ⟨State.resetNext_of_inputs_nil hi, State.fedByte_of_inputs_nil hi, ?_⟩)
    exact State.eq_of_fields rfl rfl rfl rfl (by simp [hi])
  · rw [State.resetNext_of_inputs_cons hi, hi, List.tail_cons]
    rcases hcycle with ⟨hr, rfl⟩ | ⟨hr, ho, rfl⟩ | ⟨b, hr, ho, hx⟩
    · exact .inl ⟨hr, State.fedByte_of_rst hi hr, rfl⟩
    · exact .inr (.inl ⟨hr, State.fedByte_of_offers_nil hi ho, rfl⟩)
    · exact .inr (.inr ⟨b, hr, State.fedByte_of_offers_singleton hi hr ho, eq_opResult_of_exec hx⟩)

/-! ## Byte streams and runs -/

/-- `Feed` completes for every byte. -/
theorem feed_eq_next (s : State) (b : Byte) : feed s b = .next (opResult (decodeAt s.state b) s) := by
  rw [feed_eq, exec_eq_next]

/-- `FeedAll` feeds the first byte and goes on. -/
theorem feedAll_cons_opResult (s : State) (b : Byte) (bs : List Byte) :
    feedAll s (b :: bs) =
      (feedAll (opResult (decodeAt s.state b) s) bs).map fun r =>
        (r.1, (opResult (decodeAt s.state b) s).event.toList ++ r.2) :=
  feedAll_cons bs (feed_eq_next s b)

/-- `FeedAll` over two streams in a row, with their events in a row. -/
theorem feedAll_append {s t u : State} {xs ys : List Byte} {es fs : List Event}
    (hx : feedAll s xs = some (t, es)) (hy : feedAll t ys = some (u, fs)) :
    feedAll s (xs ++ ys) = some (u, es ++ fs) := by
  induction xs generalizing s es with
  | nil =>
    obtain ⟨rfl, rfl⟩ : s = t ∧ [] = es := by simpa [feedAll] using hx
    exact hy
  | cons b bs ih =>
    rw [feedAll_cons_opResult, Option.map_eq_some_iff] at hx
    obtain ⟨⟨t', es'⟩, hbs, heq⟩ := hx
    obtain ⟨rfl, rfl⟩ := Prod.mk.inj heq
    rw [List.cons_append, feedAll_cons_opResult, ih hbs]
    simp

/-- Once no input cycle is listed, a run of any length emits nothing and keeps the registers
(30_encoding.md R80). -/
theorem observe_of_inputs_nil (k : Nat) {s : State} (hi : s.inputs = []) :
    ∃ t, observe k s = some (t, []) ∧ t.regs = s.regs ∧ t.inputs = [] := by
  induction k generalizing s with
  | zero => exact ⟨s, rfl, rfl, hi⟩
  | succ k ih =>
    obtain ⟨t, hobs, hregs, hin⟩ := ih (s := s.silent) hi
    exact ⟨t, by simp [observe_succ k (step_of_inputs_nil hi), hobs], hregs, hin⟩

/-! ## The invariant of reachable states (10_state.md R22, R26 to R28) -/

/-- With `pending` cleared, a named state code is all the invariant asks. -/
theorem State.inv_of_pending_eq_zero {s : State} (hc : s.state.toNat ≤ 5) (hp : s.pending = 0#14) : s.Inv :=
  ⟨hc, fun _ => hp, 0#8, hp.trans (by decide)⟩

/-- A shifted byte may stand in `pending` where the state holds a high byte. -/
theorem State.inv_of_holdsHighByte {s : State} {b : Byte} (hc : holdsHighByte s.state)
    (hp : s.pending = packHigh b) : s.Inv := by
  refine ⟨?_, fun hn => absurd hc hn, b, hp⟩
  rcases hc with hc | hc <;> simp [hc, codeExpectAddressLow, codeExpectDataLow]

/-- The invariant speaks of the state code and `pending` only. -/
theorem State.inv_of_eq {s t : State} (h : s.Inv) (hc : t.state = s.state) (hp : t.pending = s.pending) : t.Inv := by
  simpa only [State.Inv, hc, hp] using h

/-- The operation of a byte keeps the invariant. -/
theorem opResult_keeps_inv {s : State} {b : Byte} {i : Instr} (hsel : Selects s.state b i) (h : s.Inv) :
    (opResult i s).Inv := by
  cases hsel with
  | start _ => exact State.inv_of_pending_eq_zero (by simp [codeExpectAddressHigh]) rfl
  | endFrame _ => exact State.inv_of_pending_eq_zero (by simp [codeIdle]) rfl
  | idleData _ _ => exact State.inv_of_eq h rfl rfl
  | addrHi _ _ => exact State.inv_of_holdsHighByte (.inl rfl) rfl
  | addrLo _ _ => exact State.inv_of_pending_eq_zero (by simp [codeExpectInstance]) rfl
  | instanceOp _ hc =>
    obtain ⟨-, hcleared, -⟩ := h
    have hp : s.pending = 0#14 := hcleared (by rw [hc]; decide)
    exact State.inv_of_pending_eq_zero (by simp [codeExpectDataHigh]) hp
  | dataHi _ _ => exact State.inv_of_holdsHighByte (.inr rfl) rfl
  | dataLo _ _ => exact State.inv_of_pending_eq_zero (by simp [codeExpectAddressHigh]) rfl
  | defaultOp _ _ => exact State.inv_of_eq h rfl rfl

/-- Settles O40: reset and idle cycles are immediate, and a fed byte is `opResult_keeps_inv`. -/
theorem stepKeepsReachableInvariant : Obligations.StepKeepsReachableInvariant := by
  intro s t h hstep
  rcases step_next_kinds hstep with ⟨-, -, rfl⟩ | ⟨-, -, rfl⟩ | ⟨b, -, -, rfl⟩
  · exact State.inv_of_pending_eq_zero (by simp [codeIdle]) rfl
  · exact State.inv_of_eq h rfl rfl
  · exact opResult_keeps_inv (selects_decodeAt s.state b) (State.inv_of_eq h rfl rfl)

/-- Settles O41: `pending` is cleared and the code is `Idle`. -/
theorem resetSatisfiesReachableInvariant : Obligations.ResetSatisfiesReachableInvariant :=
  State.inv_of_pending_eq_zero (by decide) rfl

/-! ## `pending` outside the fields (10_state.md R28) -/

/-- Two machines that differ only in an unobservable `pending` do so again after the same operation: it clears
`pending`, loads it anew, or leads to a state that does not hold a high byte; and only the low-byte operations report
it. -/
theorem opResult_pendingEquiv {s t : State} {b : Byte} {i : Instr} (hsel : Selects s.state b i)
    (h : PendingEquiv s t) : PendingEquiv (opResult i s) (opResult i t) := by
  obtain ⟨hstate, hcounter, -, hinputs, hpending⟩ := h
  cases hsel with
  | start _ => exact ⟨rfl, hcounter, rfl, hinputs, fun _ => rfl⟩
  | endFrame _ => exact ⟨rfl, congrArg nextCount hcounter, by simp [hcounter], hinputs, fun _ => rfl⟩
  | idleData _ _ => exact ⟨hstate, hcounter, rfl, hinputs, hpending⟩
  | addrHi _ _ => exact ⟨rfl, hcounter, rfl, hinputs, fun _ => rfl⟩
  | addrLo _ hc => exact ⟨rfl, hcounter, by simp [hpending (.inl hc)], hinputs, fun _ => rfl⟩
  | instanceOp _ _ =>
    have hnot : ¬ holdsHighByte codeExpectDataHigh := by decide
    exact ⟨rfl, hcounter, rfl, hinputs, fun hholds => absurd hholds hnot⟩
  | dataHi _ _ => exact ⟨rfl, hcounter, rfl, hinputs, fun _ => rfl⟩
  | dataLo _ hc => exact ⟨rfl, hcounter, by simp [hpending (.inr hc)], hinputs, fun _ => rfl⟩
  | defaultOp _ _ => exact ⟨hstate, hcounter, by simp [hstate], hinputs, hpending⟩

/-- Taking the next input cycle keeps the relation. -/
theorem PendingEquiv.setInputs {s t : State} (h : PendingEquiv s t) (cs : List InputCycle) :
    PendingEquiv (s.setInputs cs) (t.setInputs cs) := by
  obtain ⟨hstate, hcounter, hevent, -, hpending⟩ := h
  exact ⟨hstate, hcounter, hevent, rfl, hpending⟩

/-- A cycle without event keeps the relation. -/
theorem PendingEquiv.silent {s t : State} (h : PendingEquiv s t) : PendingEquiv s.silent t.silent := by
  obtain ⟨hstate, hcounter, -, hinputs, hpending⟩ := h
  exact ⟨hstate, hcounter, rfl, hinputs, hpending⟩

/-- Related machines take the same step: both are refused, or both go on to related machines. -/
theorem step_pendingEquiv {s t : State} (h : PendingEquiv s t) :
    (∃ r, step s = .refused r ∧ step t = .refused r) ∨
    ∃ u v, step s = .next u ∧ step t = .next v ∧ PendingEquiv u v := by
  obtain ⟨hstate, -, -, hinputs, -⟩ := id h
  rcases inputCycle_cases s.inputs with hi | ⟨c, rest, hi, hr | ⟨hr, ho | ⟨b, ho⟩ | ho⟩⟩ <;>
    have hi' := hinputs ▸ hi
  · exact .inr ⟨_, _, step_of_inputs_nil hi, step_of_inputs_nil hi', h.silent⟩
  · exact .inr ⟨_, _, step_of_rst hi hr, step_of_rst hi' hr, rfl, rfl, rfl, rfl, fun _ => rfl⟩
  · exact .inr ⟨_, _, step_of_offers_nil hi hr ho, step_of_offers_nil hi' hr ho,
      PendingEquiv.silent (PendingEquiv.setInputs h rest)⟩
  · refine .inr ⟨_, _, step_of_offers_singleton hi hr ho, step_of_offers_singleton hi' hr ho, ?_⟩
    rw [← hstate]
    exact opResult_pendingEquiv (selects_decodeAt s.state b) (PendingEquiv.setInputs h rest)
  · exact .inl ⟨_, step_of_two_offers hi hr ho, step_of_two_offers hi' hr ho⟩

/-- Settles O43, by induction on the number of steps with `step_pendingEquiv`: related machines show the same event
after each step. -/
theorem pendingOutsideFieldsIsUnobservable : Obligations.PendingOutsideFieldsIsUnobservable := by
  intro k
  induction k with
  | zero => exact fun s t h => .inr ⟨s, t, [], rfl, rfl, h⟩
  | succ k ih =>
    intro s t h
    rcases step_pendingEquiv h with ⟨r, hs, ht⟩ | ⟨s', t', hs, ht, h'⟩
    · exact .inl ⟨by simp [observe, hs], by simp [observe, ht]⟩
    · obtain ⟨-, -, hevent, -, -⟩ := id h'
      rw [observe_succ k hs, observe_succ k ht, hevent]
      rcases ih s' t' h' with ⟨hu, hv⟩ | ⟨u, v, evs, hu, hv, huv⟩
      · exact .inl ⟨by simp [hu], by simp [hv]⟩
      · exact .inr ⟨u, v, t'.event.toList ++ evs, by simp [hu], by simp [hv], huv⟩

/-! ## The counter (10_state.md R29 to R31) -/

/-- Settles O23: by the counter lemmas of the operations, and over the three kinds of a completed step. -/
theorem onlyEndAndResetWriteCounter : Obligations.OnlyEndAndResetWriteCounter := by
  refine ⟨fun i s t h => ?_, fun s t h => ?_⟩
  · rw [eq_opResult_of_exec h]
    exact ⟨fun hi => opResult_counter_of_END hi s, fun hi => opResult_counter_of_ne_END hi s⟩
  · rcases step_next_kinds h with ⟨hr, hf, rfl⟩ | ⟨hr, hf, rfl⟩ | ⟨b, hr, hf, rfl⟩
    · simp [hr, hf]
    · simp [hr, hf]
    · rw [opResult_decodeAt_counter]
      by_cases hb : b = 0x40#8 <;> simp [hr, hf, hb, endMarker, nextCount]

/-- Every stream completes, and each `0x40` in it has added 1 to the counter. -/
theorem feedAll_counter (bs : List Byte) (s : State) :
    ∃ t evs, feedAll s bs = some (t, evs) ∧ t.counter = s.counter + BitVec.ofNat 64 (bs.count endMarker) := by
  induction bs generalizing s with
  | nil => exact ⟨s, [], rfl, by simp⟩
  | cons b bs ih =>
    obtain ⟨t, evs, hfeed, hcount⟩ := ih (opResult (decodeAt s.state b) s)
    refine ⟨t, _, by rw [feedAll_cons_opResult, hfeed]; rfl, ?_⟩
    rw [hcount, opResult_decodeAt_counter, List.count_cons]
    by_cases hb : b = endMarker
    · simp [hb, nextCount, BitVec.ofNat_add, BitVec.add_assoc, BitVec.add_comm (1#64)]
    · simp [hb]

/-- Settles O25: `feedAll_counter` read as a number. -/
theorem counterCountsEndMarkers : Obligations.CounterCountsEndMarkers := by
  intro bs s
  obtain ⟨t, evs, hfeed, hcount⟩ := feedAll_counter bs s
  exact ⟨t, evs, hfeed, by simp [hcount, endMarker]⟩

/-- A stream whose only `0x40` is its last byte ends with `FrameEnded` of the first count plus one. -/
theorem feedAll_last_endMarker (s : State) {bs : List Byte} (h : endMarker ∉ bs) :
    ∃ t evs, feedAll s (bs ++ [endMarker]) = some (t, evs ++ [.frameEnded (nextCount s.counter)]) := by
  obtain ⟨t, evs, hfeed, hcount⟩ := feedAll_counter bs s
  have hsame : t.counter = s.counter := by simp [hcount, List.count_eq_zero.2 h]
  have hend : feedAll t [endMarker] = some (opResult (.endFrame t.state) t, [.frameEnded (nextCount s.counter)]) := by
    rw [feedAll_cons_opResult, decodeAt_endMarker]
    simp [feedAll, hsame]
  exact ⟨_, evs, feedAll_append hfeed hend⟩

/-! ## After reset (10_state.md R39 to R41) -/

/-- Settles O32: a run without input by `observe_of_inputs_nil`, the first END by `feedAll_last_endMarker`. -/
theorem stateAndCounterAfterReset : Obligations.StateAndCounterAfterReset := by
  refine ⟨rfl, rfl, fun k => ?_, fun bs h => feedAll_last_endMarker State.reset h⟩
  obtain ⟨t, hobs, hregs, -⟩ := observe_of_inputs_nil k (s := State.reset) rfl
  exact ⟨t, hobs, congrArg Regs.counter hregs⟩

/-- Settles O33: the reset state's fields, and the "none" row of the ports. -/
theorem pendingAndPortsAfterReset : Obligations.PendingAndPortsAfterReset := ⟨rfl, rfl, rfl⟩

/-! ## How a state code is entered (10_state.md R22, R24) -/

/-- The operation of a byte that changes the state code: `Idle` is entered by `0x40`, `ExpectAddressHigh` by `0x80` or
after the data low byte, and every other code from its predecessor by a data byte. -/
theorem opResult_enters_in_order {m : State} {b : Byte} {i : Instr} (hsel : Selects m.state b i)
    (hne : (opResult i m).state ≠ m.state) :
    ((opResult i m).state = 0#3 → b = endMarker) ∧
    ((opResult i m).state = 1#3 → b = startMarker ∨ m.state = 5#3 ∧ isData b = true) ∧
    (2 ≤ (opResult i m).state.toNat → (opResult i m).state.toNat ≤ 5 ∧
      m.state.toNat + 1 = (opResult i m).state.toNat ∧ isData b = true) := by
  cases hsel with
  | start hb => simp [hb, codeExpectAddressHigh]
  | endFrame hb => simp [hb, codeIdle]
  | idleData _ _ | defaultOp _ _ => exact absurd rfl hne
  | addrHi hb hc => simp [hb, hc, codeExpectAddressHigh, codeExpectAddressLow]
  | addrLo hb hc => simp [hb, hc, codeExpectAddressLow, codeExpectInstance]
  | instanceOp hb hc => simp [hb, hc, codeExpectInstance, codeExpectDataHigh]
  | dataHi hb hc => simp [hb, hc, codeExpectDataHigh, codeExpectDataLow]
  | dataLo hb hc => simp [hb, hc, codeExpectDataLow, codeExpectAddressHigh]

/-- Settles O42: a reset cycle enters `Idle`, an idle one changes no code, and a fed byte is
`opResult_enters_in_order`. -/
theorem statesAreEnteredOnlyInOrder : Obligations.StatesAreEnteredOnlyInOrder := by
  intro s t h hne
  rcases step_next_kinds h with ⟨hr, -, rfl⟩ | ⟨-, -, rfl⟩ | ⟨b, -, hf, rfl⟩
  · simp [hr, codeIdle]
  · exact absurd rfl hne
  · obtain ⟨hidle, haddr, hother⟩ :=
      opResult_enters_in_order (m := s.setInputs s.inputs.tail) (selects_decodeAt s.state b) hne
    rw [isData_iff] at haddr hother
    rw [hf]
    refine ⟨fun h0 => .inr (congrArg some (hidle h0)), fun h1 => ?_, fun h2 => ?_⟩
    · rcases haddr h1 with hb | ⟨hc, hb⟩
      · exact .inl (congrArg some hb)
      · exact .inr ⟨hc, b, rfl, hb⟩
    · obtain ⟨hle, hpred, hb⟩ := hother h2
      exact ⟨hle, hpred, b, rfl, hb⟩

end Sys2Proof.Machine

/-! # The input cycles (20_memory.md R43, R48) -/

namespace Sys2Proof.Machine

/-- A completed step of any kind uses up the first listed input cycle. -/
theorem step_inputs {s t : State} (h : step s = .next t) : t.inputs = s.inputs.tail := by
  rcases step_next_kinds h with ⟨-, -, rfl⟩ | ⟨-, -, rfl⟩ | ⟨b, -, -, rfl⟩
  · rw [State.resetRegisters_inputs, State.setInputs_inputs]
  · rw [State.silent_inputs, State.setInputs_inputs]
  · rw [opResult_inputs, State.setInputs_inputs]

/-- Settles O39: a step by `step_inputs`, and an operation by `opResult_inputs`. -/
theorem stepTakesExactlyOneInputCycle : Obligations.StepTakesExactlyOneInputCycle := by
  refine ⟨fun s t h => step_inputs h, fun i s t h => ?_⟩
  rw [eq_opResult_of_exec h, opResult_inputs]

end Sys2Proof.Machine

/-! # The operation word, the decoder and the table (30_encoding.md R60, R61, R64) -/

namespace Sys2Proof

open Laws.EncodedFields (codeField byteField)

/-! ## Decoding and encoding -/

/-- At most one row's condition holds: the decoder selects every operation that `Selects` allows. -/
theorem Selects.decodeAt_eq {c : StateCode} {b : Byte} {i : Instr} (hsel : Selects c b i) : decodeAt c b = i := by
  cases hsel with
  | start hb | endFrame hb => subst hb; rfl
  | idleData hb hc | addrHi hb hc | addrLo hb hc | instanceOp hb hc | dataHi hb hc | dataLo hb hc =>
    subst hc; exact decodeAt_data hb _
  | defaultOp hb hc => rcases hc with rfl | rfl <;> exact decodeAt_data hb _

/-- The word of an operation is `{code, byte}` for its own code and byte. -/
theorem encode_eq_opWord (i : Instr) : encode i = opWord (codeField i) (byteField i) := by
  cases i <;> rfl

/-- The code and the byte of a well-formed operation select it. -/
theorem Instr.selects_of_wellFormed {i : Instr} (h : i.wellFormed = true) :
    Selects (codeField i) (byteField i) i := by
  cases i with
  | start s => exact .start rfl
  | endFrame s => exact .endFrame rfl
  | idleData b => exact .idleData h rfl
  | addrHi b => exact .addrHi h rfl
  | addrLo b => exact .addrLo h rfl
  | instanceOp b => exact .instanceOp h rfl
  | dataHi b => exact .dataHi h rfl
  | dataLo b => exact .dataLo h rfl
  | defaultOp s b =>
    have hbit : (0b11#2 ++ s).extractLsb' 0 1 = s := BitVec.extractLsb'_append_eq_right
    have hcode : 0b11#2 ++ s = 6#3 ∨ 0b11#2 ++ s = 7#3 :=
      (by decide : ∀ s : BitVec 1, 0b11#2 ++ s = 6#3 ∨ 0b11#2 ++ s = 7#3) s
    simpa only [codeField, byteField, hbit] using Selects.defaultOp (c := 0b11#2 ++ s) h hcode

/-- An operation selected is well formed, and its own code and byte are those that select it. -/
theorem Selects.fields {c : StateCode} {b : Byte} {i : Instr} (hsel : Selects c b i) :
    i.wellFormed = true ∧ codeField i = c ∧ byteField i = b := by
  cases hsel with
  | start hb | endFrame hb => exact ⟨rfl, rfl, hb.symm⟩
  | idleData hb hc | addrHi hb hc | addrLo hb hc | instanceOp hb hc | dataHi hb hc | dataLo hb hc =>
    exact ⟨hb, hc.symm, rfl⟩
  | defaultOp hb hc => rcases hc with rfl | rfl <;> exact ⟨hb, rfl, rfl⟩

/-- Decoding undoes encoding. -/
theorem decode_encode (i : Instr) (h : i.wellFormed = true) : decode (encode i) = i := by
  rw [encode_eq_opWord, decode_opWord, (Instr.selects_of_wellFormed h).decodeAt_eq]

/-- Settles O1: `decode_encode`. -/
theorem decodeOfEncodeIsTheOperation : Obligations.DecodeOfEncodeIsTheOperation := decode_encode

/-- Settles O2: the operation of `{code, byte}` has these two as its own code and byte. -/
theorem encodeOfDecodeIsTheWord : Obligations.EncodeOfDecodeIsTheWord := by
  intro w
  obtain ⟨hwf, hcode, hbyte⟩ := (selects_decodeAt w.code w.byte).fields
  refine ⟨hwf, ?_⟩
  calc encode (decode w) = opWord (codeField (decode w)) (byteField (decode w)) := encode_eq_opWord _
    _ = opWord w.code w.byte := congrArg₂ opWord hcode hbyte
    _ = w := opWord_code_byte w

/-- `decode_opWord`, with the word written as its two fields in a row. -/
theorem decode_append (c : StateCode) (b : Byte) : decode (c ++ b) = decodeAt c b := decode_opWord c b

/-- Settles O3: the two marker rows, and `decodeAt_data` at each state code. -/
theorem decodeTakesFirstRowOfPriorityTable : Obligations.DecodeTakesFirstRowOfPriorityTable := by
  intro s b
  simp only [decode_append]
  refine ⟨?_, ?_, fun hs he => ?_⟩
  · rintro rfl; rfl
  · rintro rfl; rfl
  · have hb : isData b = true := isData_iff.2 ⟨hs, he⟩
    rw [decodeAt_data hb]
    refine ⟨?_, ?_, ?_, ?_, ?_, ?_, fun hc => ?_⟩
    case refine_7 => rcases hc with rfl | rfl <;> rfl
    all_goals rintro rfl; rfl

/-- Settles O6: each word is the encoding of its operation. -/
theorem writtenOutWordsDecode : Obligations.WrittenOutWordsDecode :=
  ⟨decode_encode (.start 3#3) rfl, decode_encode (.endFrame 5#3) rfl, decode_encode (.idleData 0xC0#8) rfl,
    decode_encode (.addrHi 0x81#8) rfl, decode_encode (.addrLo 0x7F#8) rfl, decode_encode (.instanceOp 0x05#8) rfl,
    decode_encode (.dataHi 0xFF#8) rfl, decode_encode (.dataLo 0x10#8) rfl, decode_encode (.defaultOp 1#1 0x12#8) rfl⟩

/-! ## The mask and match table -/

/-- A row covers `{c, b}` when its mask and pattern fit the code and the byte, each on its own. -/
theorem OpcodeRow.covers_opWord (r : OpcodeRow) (c : StateCode) (b : Byte) :
    r.covers (opWord c b) = (c &&& r.mask.code == r.pattern.code && b &&& r.mask.byte == r.pattern.byte) := by
  have hand : opWord c b &&& r.mask = opWord (c &&& r.mask.code) (b &&& r.mask.byte) := by
    conv_lhs => rw [← opWord_code_byte r.mask]
    exact BitVec.and_append
  have hinj (c' : StateCode) (b' : Byte) : opWord c' b' = r.pattern ↔ c' = r.pattern.code ∧ b' = r.pattern.byte := by
    constructor
    · rintro h
      simp [← h]
    · rintro ⟨rfl, rfl⟩
      exact opWord_code_byte _
  rw [Bool.eq_iff_iff]
  simp [OpcodeRow.covers, hand, hinj]

/-- The row of a data byte depends on the state code alone. -/
theorem decodeAt_kind_of_data {b : Byte} (hb : isData b = true) (c : StateCode) :
    (decodeAt c b).kind = (decodeAt c 0#8).kind := by
  rw [decodeAt_data hb, decodeAt_data rfl]
  rcases code_cases c with rfl | rfl | rfl | rfl | rfl | rfl | rfl | rfl <;> rfl

/-- A row of the table asks nothing of the byte, or that it is one of the markers. -/
theorem opcodeTable_bytes : ∀ r ∈ opcodeTable, r.mask.byte = 0#8 ∨
    r.mask.byte = BitVec.allOnes 8 ∧ (r.pattern.byte = startMarker ∨ r.pattern.byte = endMarker) := by
  decide

/-- A row of the table covers the words of all data bytes alike. -/
theorem OpcodeRow.covers_opWord_of_data {r : OpcodeRow} (hr : r ∈ opcodeTable) {b : Byte} (hb : isData b = true)
    (c : StateCode) : r.covers (opWord c b) = r.covers (opWord c 0#8) := by
  obtain ⟨hs, he⟩ := isData_iff.1 hb
  rw [covers_opWord, covers_opWord]
  rcases opcodeTable_bytes r hr with hmask | ⟨hmask, hpat | hpat⟩
  · simp [hmask]
  · simp only [hmask, hpat, BitVec.and_allOnes, beq_eq_false_iff_ne.2 hs]; rfl
  · simp only [hmask, hpat, BitVec.and_allOnes, beq_eq_false_iff_ne.2 he]; rfl

/-- The table selects the operation decoded: at a marker, and at the data byte 0 for every other. -/
theorem tableKind_opWord (c : StateCode) (b : Byte) : tableKind (opWord c b) = some (decodeAt c b).kind := by
  rcases byte_cases b with rfl | rfl | hb
  · revert c; decide
  · revert c; decide
  · have hrows : tableKind (opWord c b) = tableKind (opWord c 0#8) :=
      congrArg (Option.map _) (List.find?_congr fun r hr => OpcodeRow.covers_opWord_of_data hr hb c)
    have hzero : ∀ c : StateCode, tableKind (opWord c 0#8) = some (decodeAt c 0#8).kind := by decide
    rw [hrows, hzero, decodeAt_kind_of_data hb]

/-- Settles O4: `tableKind_opWord` for the code and the byte of the word. -/
theorem decodeAgreesWithMaskAndMatchTable : Obligations.DecodeAgreesWithMaskAndMatchTable := by
  intro w
  have h := tableKind_opWord w.code w.byte
  rwa [opWord_code_byte] at h

/-! ## How many words select each operation -/

/-- Every byte, in ascending order. -/
def allBytes : List Byte := (List.range 256).map (BitVec.ofNat 8)

/-- How many bytes select an operation in a state code. -/
def byteCount (c : StateCode) (k : OpKind) : Nat := allBytes.countP fun b => (decodeAt c b).kind == k

/-- No byte is missing from `allBytes`. -/
theorem mem_allBytes (b : Byte) : b ∈ allBytes :=
  List.mem_map.2 ⟨b.toNat, List.mem_range.2 b.isLt, BitVec.ofNat_toNat _ _⟩

/-- No byte stands in `allBytes` twice. -/
theorem nodup_allBytes : allBytes.Nodup := by
  refine List.Nodup.map_on (fun m hm n hn h => ?_) List.nodup_range
  rw [List.mem_range] at hm hn
  simpa [← BitVec.toNat_inj, Nat.mod_eq_of_lt hm, Nat.mod_eq_of_lt hn] using h

/-- The code of a number's 11 bits is its bits 10 to 8. -/
theorem OpWord.code_ofNat (n : Nat) : OpWord.code (BitVec.ofNat 11 n) = BitVec.ofNat 3 (n / 256) := by
  apply BitVec.eq_of_toNat_eq
  simp only [OpWord.code, BitVec.extractLsb'_toNat, BitVec.toNat_ofNat, Nat.shiftRight_eq_div_pow]
  omega

/-- The byte of a number's 11 bits is its bits 7 to 0. -/
theorem OpWord.byte_ofNat (n : Nat) : OpWord.byte (BitVec.ofNat 11 n) = BitVec.ofNat 8 n := by
  apply BitVec.eq_of_toNat_eq
  simp only [OpWord.byte, BitVec.extractLsb'_toNat, BitVec.toNat_ofNat, Nat.shiftRight_zero]
  omega

/-- Counting to `m * n` is counting to `n`, `m` times over. -/
theorem range_mul (m n : Nat) :
    List.range (m * n) = (List.range m).flatMap fun i => (List.range n).map fun j => i * n + j := by
  induction m with
  | zero => simp
  | succ m ih => simp [Nat.succ_mul, List.range_add, List.range_succ, List.flatMap_append, ih]

/-- The words in order are, code by code, those of every byte. -/
theorem allOpWords_eq : allOpWords = (List.range 8).flatMap fun c => allBytes.map (opWord (BitVec.ofNat 3 c)) := by
  have hword (c j : Nat) (hj : j ∈ List.range 256) :
      BitVec.ofNat 11 (c * 256 + j) = opWord (BitVec.ofNat 3 c) (BitVec.ofNat 8 j) := by
    rw [List.mem_range] at hj
    have hcode : (c * 256 + j) / 256 = c := by omega
    have hbyte : BitVec.ofNat 8 (c * 256 + j) = BitVec.ofNat 8 j := BitVec.eq_of_toNat_eq (by simp)
    rw [← opWord_code_byte (BitVec.ofNat 11 (c * 256 + j)), OpWord.code_ofNat, OpWord.byte_ofNat, hcode, hbyte]
  rw [allOpWords, show 2048 = 8 * 256 from rfl, range_mul, List.map_flatMap]
  refine List.flatMap_congr fun c _ => ?_
  simpa [allBytes] using hword c

/-- The words that select an operation are counted code by code. -/
theorem wordCount_eq_sum (k : OpKind) :
    wordCount k = ((List.range 8).map fun c => byteCount (BitVec.ofNat 3 c) k).sum := by
  simp [wordCount, ← List.countP_eq_length_filter, allOpWords_eq, List.countP_flatMap, byteCount, Function.comp_def]

/-- Of the 256 bytes, all but the two markers are data bytes. -/
theorem countP_isData_allBytes : allBytes.countP isData = 254 := by
  have hfilter : allBytes.filter isData = (allBytes.erase endMarker).erase startMarker := by
    rw [(nodup_allBytes.erase _).erase_eq_filter, nodup_allBytes.erase_eq_filter, List.filter_filter]
    rfl
  have hstart : startMarker ∈ allBytes.erase endMarker :=
    (List.mem_erase_of_ne (by decide)).2 (mem_allBytes startMarker)
  rw [List.countP_eq_length_filter, hfilter, List.length_erase_of_mem hstart,
    List.length_erase_of_mem (mem_allBytes endMarker)]
  simp [allBytes]

/-- The operation selected is START exactly for the byte `0x80`. -/
theorem Selects.kind_eq_START_iff {c : StateCode} {b : Byte} {i : Instr} (hsel : Selects c b i) :
    i.kind = .START ↔ b = startMarker := by
  cases hsel with
  | start hb => simp [Instr.kind, hb]
  | endFrame hb => simp [Instr.kind, hb, startMarker, endMarker]
  | idleData hb _ | addrHi hb _ | addrLo hb _ | instanceOp hb _ | dataHi hb _ | dataLo hb _ | defaultOp hb _ =>
    simp [Instr.kind, (isData_iff.1 hb).1]

/-- One byte selects START in each code. -/
theorem byteCount_START (c : StateCode) : byteCount c .START = 1 := by
  have hiff : ∀ b ∈ allBytes, ((decodeAt c b).kind == .START) = true ↔ (b == startMarker) = true := by
    intro b _
    rw [beq_iff_eq, beq_iff_eq, (selects_decodeAt c b).kind_eq_START_iff]
  exact (List.countP_congr hiff).trans (List.count_eq_one_of_mem nodup_allBytes (mem_allBytes _))

/-- One byte selects END in each code. -/
theorem byteCount_END (c : StateCode) : byteCount c .END = 1 := by
  have hiff : ∀ b ∈ allBytes, ((decodeAt c b).kind == .END) = true ↔ (b == endMarker) = true := by
    intro b _
    rw [beq_iff_eq, beq_iff_eq, (selects_decodeAt c b).kind_eq_END_iff]
  exact (List.countP_congr hiff).trans (List.count_eq_one_of_mem nodup_allBytes (mem_allBytes _))

/-- The data bytes of a code select that code's row, and no byte selects another row of a data byte. -/
theorem byteCount_of_data {k : OpKind} (hs : k ≠ .START) (he : k ≠ .END) (c : StateCode) :
    byteCount c k = if (decodeAt c 0#8).kind = k then 254 else 0 := by
  have hiff : ∀ b ∈ allBytes,
      ((decodeAt c b).kind == k) = true ↔ (isData b && (decodeAt c 0#8).kind == k) = true := by
    intro b _
    rcases byte_cases b with rfl | rfl | hb
    · simp [Instr.kind, isData, hs.symm]
    · simp [Instr.kind, isData, he.symm]
    · simp [decodeAt_kind_of_data hb, hb]
  rw [byteCount, List.countP_congr hiff]
  split
  next hk =>
    simp only [hk, beq_self_eq_true, Bool.and_true]
    exact countP_isData_allBytes
  next hk => simp [hk]

/-- Settles O5: code by code, one byte selects each marker's operation, and 254 the row of the code. -/
theorem operationWordCounts : Obligations.OperationWordCounts := by
  have hdata {k : OpKind} (hs : k ≠ .START) (he : k ≠ .END) : wordCount k =
      ((List.range 8).map fun c => if (decodeAt (BitVec.ofNat 3 c) 0#8).kind = k then 254 else 0).sum := by
    simp only [wordCount_eq_sum, byteCount_of_data hs he]
  refine ⟨?_, ?_, ?_, ?_, ?_, ?_, ?_, ?_, ?_⟩
  · simp only [wordCount_eq_sum, byteCount_START]; rfl
  · simp only [wordCount_eq_sum, byteCount_END]; rfl
  all_goals
    rw [hdata (by decide) (by decide)]
    rfl

/-! ## Numbers that hold an operation word -/

/-- A number is read as an operation exactly when its low `nbits` bits are an 11-bit number. -/
theorem decodeTableWord_eq (nbits w : Nat) : decodeTableWord nbits w =
    if w % 2 ^ nbits < 2048 then some (decode (BitVec.ofNat 11 (w % 2 ^ nbits))) else none := by
  unfold decodeTableWord decodeNat
  split_ifs <;> rfl

/-- Settles O7: the two branches of `decodeTableWord_eq`. -/
theorem numbersAboveElevenBitsAreRejected : Obligations.NumbersAboveElevenBitsAreRejected := by
  intro nbits w
  rw [decodeTableWord_eq]
  exact ⟨fun hlt => if_pos hlt, fun hle => if_neg (Nat.not_lt.2 hle)⟩

end Sys2Proof

/-! # A step and the reference listing (30_encoding.md R62, R78) -/

namespace Sys2Proof.Machine

/-! ## The reference listing -/

section
variable (b : Byte)

/-- `packHigh` as the listing computes it. -/
theorem packHigh_eq_ofNat : packHigh b = BitVec.ofNat 14 (b.toNat * 64) := by
  rw [← packHigh_toNat, BitVec.ofNat_toNat, BitVec.setWidth_eq]

/-- `packLow` as the listing computes it. -/
theorem packLow_eq_ofNat (p : Field) : packLow p b = BitVec.ofNat 14 (p.toNat ||| b.toNat) := by
  rw [← packLow_toNat, BitVec.ofNat_toNat, BitVec.setWidth_eq]

/-- `nextCount` as the listing computes it. -/
theorem nextCount_eq_ofNat (n : Count) : nextCount n = BitVec.ofNat 64 ((n.toNat + 1) % 2 ^ 64) := by
  rw [← nextCount_toNat, BitVec.ofNat_toNat, BitVec.setWidth_eq]

end

/-- A data byte passes neither test of a marker as a number. -/
theorem toNat_ne_marker_of_data {b : Byte} (hb : isData b = true) : b.toNat ≠ 0x80 ∧ b.toNat ≠ 0x40 := by
  obtain ⟨hs, he⟩ := isData_iff.1 hb
  exact ⟨fun h => hs (BitVec.eq_of_toNat_eq h), fun h => he (BitVec.eq_of_toNat_eq h)⟩

/-- The operation of a byte leaves the registers and the event of the reference listing. -/
theorem opResult_eq_referenceFeed {m : State} {b : Byte} {i : Instr} (hsel : Selects m.state b i) :
    ((opResult i m).regs, (opResult i m).event) = referenceFeed m.regs b := by
  obtain ⟨c, p, n, e, cs⟩ := m
  cases hsel with
  | start hb => subst hb; rfl
  | endFrame hb => subst hb; rw [opResult_endFrame, nextCount_eq_ofNat]; rfl
  | idleData hb hc | instanceOp hb hc =>
    obtain ⟨hs, he⟩ := toNat_ne_marker_of_data hb
    rw [referenceFeed, if_neg hs, if_neg he]
    cases hc; rfl
  | addrHi hb hc | dataHi hb hc =>
    obtain ⟨hs, he⟩ := toNat_ne_marker_of_data hb
    rw [referenceFeed, if_neg hs, if_neg he, ← packHigh_eq_ofNat]
    cases hc; rfl
  | addrLo hb hc | dataLo hb hc =>
    obtain ⟨hs, he⟩ := toNat_ne_marker_of_data hb
    rw [referenceFeed, if_neg hs, if_neg he, ← packLow_eq_ofNat]
    cases hc; rfl
  | defaultOp hb hc =>
    obtain ⟨hs, he⟩ := toNat_ne_marker_of_data hb
    rw [referenceFeed, if_neg hs, if_neg he]
    rcases hc with hc | hc <;> cases hc <;> rfl

/-- The registers after the operation of a byte, by the reference listing. -/
theorem opResult_decodeAt_regs (m : State) (b : Byte) :
    (opResult (decodeAt m.state b) m).regs = (referenceFeed m.regs b).1 :=
  congrArg Prod.fst (opResult_eq_referenceFeed (selects_decodeAt m.state b))

/-- The event of the operation of a byte, by the reference listing. -/
theorem opResult_decodeAt_event (m : State) (b : Byte) :
    (opResult (decodeAt m.state b) m).event = (referenceFeed m.regs b).2 :=
  congrArg Prod.snd (opResult_eq_referenceFeed (selects_decodeAt m.state b))

/-- A state is its registers, its event and its input cycles. -/
theorem State.eq_of_regs {s : State} {r : Regs} (hr : s.regs = r) :
    s = { state := r.state, pending := r.pending, counter := r.counter, event := s.event, inputs := s.inputs } := by
  subst hr; rfl

/-- Settles O9: the operation of the byte fed is `opResult_eq_referenceFeed`. -/
theorem stepIsTheReferenceListing : Obligations.StepIsTheReferenceListing := by
  intro s c rest b hi hr ho
  rw [step_of_offers_singleton hi hr ho]
  refine congrArg _ ((State.eq_of_regs (opResult_decodeAt_regs (s.setInputs rest) b)).trans ?_)
  rw [opResult_decodeAt_event, opResult_inputs]
  rfl

/-! ## What a cycle runs -/

/-- Settles O8: `step_of_offers_singleton`, with the operation decoded from the word. -/
theorem stepRunsDecodedOperation : Obligations.StepRunsDecodedOperation := by
  intro s c rest b hi hr ho
  rw [step_of_offers_singleton hi hr ho, decode_append, exec_eq_next]
  rfl

/-- Settles O34: `step_of_offers_nil`. -/
theorem idleCycleHoldsRegisters : Obligations.IdleCycleHoldsRegisters := by
  intro s c rest hi hr ho
  exact ⟨(s.setInputs rest).silent, step_of_offers_nil hi hr ho, rfl, rfl, rfl⟩

/-- The machine with a word placed runs the operation decoded from it, with the word's code in the state register. -/
theorem step_placeWord (s : State) (w : OpWord) : step (s.placeWord w) = exec (decode w) (s.enter w.code) := by
  have hi : (s.placeWord w).inputs = InputCycle.feed w.byte :: s.inputs := rfl
  rw [step_of_offers_singleton hi (InputCycle.feed_rst _) (InputCycle.feed_offers _), exec_eq_next]
  rfl

/-- Settles O10: a number that is read as an operation is its 11 bits, and these run by `step_placeWord`. -/
theorem placedWordRunsNext : Obligations.PlacedWordRunsNext := by
  intro s nbits w i h
  rw [decodeTableWord_eq, Option.ite_none_right_eq_some, Option.some.injEq] at h
  obtain ⟨-, rfl⟩ := h
  rw [State.withFetchWord, step_placeWord, OpWord.code_ofNat]
  rfl

/-! ## The end of the stream, and one `Feed` for each byte -/

/-- Settles O35: `observe_of_inputs_nil`. -/
theorem endOfStreamChangesNothing : Obligations.EndOfStreamChangesNothing :=
  fun k _ hi => observe_of_inputs_nil k hi

/-- The operation of a byte depends on the registers alone: machines with the same ones get the same registers and
the same event. -/
theorem opResult_congr_regs {m n : State} (h : m.regs = n.regs) (b : Byte) :
    (opResult (decodeAt m.state b) m).regs = (opResult (decodeAt n.state b) n).regs ∧
    (opResult (decodeAt m.state b) m).event = (opResult (decodeAt n.state b) n).event := by
  simp only [opResult_decodeAt_regs, opResult_decodeAt_event, h, and_self]

/-- A cycle without reset in which at most one producer feeds is idle or feeds one byte. -/
theorem InputCycle.offers_cases {c : InputCycle} (h : c.offers.length ≤ 1) :
    c.offers = [] ∨ ∃ b, c.offers = [b] := by
  rcases Nat.le_one_iff_eq_zero_or_eq_one.1 h with h0 | h1
  · exact .inl (List.length_eq_zero_iff.1 h0)
  · exact .inr (List.length_eq_one_iff.1 h1)

/-- The run over cycles without reset and `FeedAll` over their bytes, from machines with the same registers. -/
theorem observe_eq_feedAll (cs rest : List InputCycle) {s m : State} (hregs : s.regs = m.regs)
    (hi : s.inputs = cs ++ rest) (hcs : ∀ c ∈ cs, c.rst = false ∧ c.offers.length ≤ 1) :
    ∃ t u evs, observe cs.length s = some (t, evs) ∧ feedAll m (fedBytes cs) = some (u, evs) ∧
      t.regs = u.regs ∧ t.inputs = rest := by
  induction cs generalizing s m with
  | nil => exact ⟨s, m, [], rfl, rfl, hregs, hi⟩
  | cons c cs ih =>
    obtain ⟨⟨hr, hlen⟩, htail⟩ := List.forall_mem_cons.1 hcs
    rcases InputCycle.offers_cases hlen with ho | ⟨b, ho⟩
    · obtain ⟨t, u, evs, hobs, hfeed, hend⟩ := ih (s := (s.setInputs (cs ++ rest)).silent) hregs rfl htail
      refine ⟨t, u, evs, ?_, ?_, hend⟩
      · simp [observe_succ cs.length (step_of_offers_nil hi hr ho), hobs]
      · simpa [fedBytes, ho] using hfeed
    · obtain ⟨hregs', hevent⟩ := opResult_congr_regs (m := s.setInputs (cs ++ rest)) hregs b
      obtain ⟨t, u, evs, hobs, hfeed, hend⟩ := ih hregs' (opResult_inputs _ _) htail
      refine ⟨t, u, (opResult (decodeAt m.state b) m).event.toList ++ evs, ?_, ?_, hend⟩
      · rw [List.length_cons, observe_succ cs.length (step_of_offers_singleton hi hr ho)]
        rw [← hevent]
        exact congrArg (Option.map _) hobs
      · have hbytes : fedBytes (c :: cs) = b :: fedBytes cs := by simp [fedBytes, ho]
        rw [hbytes, feedAll_cons_opResult, hfeed]
        rfl

/-- Settles O45: `observe_eq_feedAll` from one machine. -/
theorem cyclesCarryOneFeedPerByte : Obligations.CyclesCarryOneFeedPerByte :=
  fun cs rest _ hi hcs => observe_eq_feedAll cs rest rfl hi hcs

/-! # The events (30_encoding.md R69 to R72) -/

/-- `FrameEnded` is the event of END alone and carries the counter END leaves. -/
theorem opResult_event_frameEnded {i : Instr} {m : State} {n : Count}
    (h : (opResult i m).event = some (.frameEnded n)) : n = nextCount m.counter ∧ (opResult i m).counter = n := by
  cases i with
  | endFrame c =>
    have hn : nextCount m.counter = n := by simpa using h
    exact ⟨hn.symm, hn⟩
  | _ => simp at h

/-- Settles O24: a step that emits `FrameEnded` ran `opResult_event_frameEnded`, and the first END after reset is
`feedAll_last_endMarker`. -/
theorem frameEndedCarriesUpdatedCount : Obligations.FrameEndedCarriesUpdatedCount := by
  refine ⟨fun s t n hstep hev => ?_, fun bs h => feedAll_last_endMarker State.reset h⟩
  rcases step_next_kinds hstep with ⟨-, -, rfl⟩ | ⟨-, -, rfl⟩ | ⟨b, -, -, rfl⟩
  · simp at hev
  · simp at hev
  · exact opResult_event_frameEnded hev

/-- `UnexpectedByte` reports the state code and a data byte, in `Idle` or an unnamed code, and no register changes. -/
theorem opResult_event_unexpectedByte {m : State} {b : Byte} {i : Instr} {k : StateCode} {v : Byte}
    (hsel : Selects m.state b i) (h : (opResult i m).event = some (.unexpectedByte k v)) :
    v = b ∧ isData b = true ∧ k = m.state ∧ (k = 0#3 ∨ k = 6#3 ∨ k = 7#3) ∧ (opResult i m).regs = m.regs := by
  cases hsel with
  | idleData hb hc =>
    obtain ⟨hk, hv⟩ : codeIdle = k ∧ b = v := by simpa using h
    exact ⟨hv.symm, hb, hk.symm.trans hc.symm, .inl hk.symm, rfl⟩
  | defaultOp hb hc =>
    obtain ⟨hk, hv⟩ : m.state = k ∧ b = v := by simpa using h
    exact ⟨hv.symm, hb, hk.symm, .inr (hk ▸ hc), rfl⟩
  | start _ | endFrame _ | addrHi _ _ | addrLo _ _ | instanceOp _ _ | dataHi _ _ | dataLo _ _ => simp at h

/-- A data byte in `Idle` or an unnamed code is reported, and no register changes. -/
theorem opResult_of_unexpected_code {m : State} {b : Byte} (hb : isData b = true)
    (hc : m.state = 0#3 ∨ m.state = 6#3 ∨ m.state = 7#3) :
    opResult (decodeAt m.state b) m = m.emit (.unexpectedByte m.state b) := by
  rcases hc with hc | hc
  · rw [(Selects.idleData hb hc).decodeAt_eq, hc]; rfl
  · rw [(Selects.defaultOp hb hc).decodeAt_eq]; rfl

/-- A cycle in which two producers feed feeds no one byte. -/
theorem State.fedByte_of_two_offers {s : State} {c : InputCycle} {rest : List InputCycle}
    (hi : s.inputs = c :: rest) (ho : 2 ≤ c.offers.length) : s.fedByte = none := by
  match h : c.offers with
  | [] => simp [h] at ho
  | [_] => simp [h] at ho
  | _ :: _ :: _ => simp [State.fedByte, hi, h]

/-- The byte fed is the only one offered in the next cycle, which is no reset cycle. -/
theorem State.fedByte_eq_some {s : State} {b : Byte} (h : s.fedByte = some b) :
    ∃ c, s.inputs = c :: s.inputs.tail ∧ c.rst = false ∧ c.offers = [b] := by
  rcases inputCycle_cases s.inputs with hi | ⟨c, rest, hi, hr | ⟨hr, ho | ⟨b', ho⟩ | ho⟩⟩
  · simp [State.fedByte_of_inputs_nil hi] at h
  · simp [State.fedByte_of_rst hi hr] at h
  · simp [State.fedByte_of_offers_nil hi ho] at h
  · obtain rfl : b' = b := by simpa [State.fedByte_of_offers_singleton hi hr ho] using h
    exact ⟨c, by rw [hi, List.tail_cons], hr, ho⟩
  · simp [State.fedByte_of_two_offers hi ho] at h

/-- Settles O26: `opResult_event_unexpectedByte` for the byte fed, and `opResult_of_unexpected_code`. -/
theorem unexpectedByteReportsStateAndByte : Obligations.UnexpectedByteReportsStateAndByte := by
  refine ⟨fun s t k v hstep hev => ?_, fun s v hf hs he hc => ?_⟩
  · rcases step_next_kinds hstep with ⟨-, -, rfl⟩ | ⟨-, -, rfl⟩ | ⟨b, -, hf, rfl⟩
    · simp at hev
    · simp at hev
    · obtain ⟨rfl, hb, hk, hcodes, hregs⟩ :=
        opResult_event_unexpectedByte (m := s.setInputs s.inputs.tail) (selects_decodeAt s.state b) hev
      obtain ⟨hs, he⟩ := isData_iff.1 hb
      exact ⟨hf, hs, he, hk, hcodes, hregs⟩
  · obtain ⟨c, hi, hr, ho⟩ := State.fedByte_eq_some hf
    have hres := opResult_of_unexpected_code (m := s.setInputs s.inputs.tail) (isData_iff.2 ⟨hs, he⟩) hc
    exact ⟨_, (step_of_offers_singleton hi hr ho).trans (congrArg _ hres), rfl, rfl⟩

/-- The event of the operation of a byte agrees with the registers it leaves. -/
theorem opResult_eventAgrees {m : State} {b : Byte} {i : Instr} (hsel : Selects m.state b i) :
    (opResult i m).eventAgrees = true := by
  cases hsel with
  | start _ | addrHi _ _ | addrLo _ _ | dataHi _ _ | dataLo _ _ => rfl
  | endFrame _ => simp [State.eventAgrees]
  | idleData hb hc => simp [State.eventAgrees, hb, hc]
  | instanceOp hb _ => simp [State.eventAgrees, hb]
  | defaultOp hb hc => rcases hc with hc | hc <;> simp [State.eventAgrees, hb, hc]

/-- Settles O27: no event agrees with any registers, and that of a byte fed is `opResult_eventAgrees`. -/
theorem eventAgreesWithRegistersAfterStep : Obligations.EventAgreesWithRegistersAfterStep := by
  intro s t hstep
  rcases step_next_kinds hstep with ⟨-, -, rfl⟩ | ⟨-, -, rfl⟩ | ⟨b, -, -, rfl⟩
  · rfl
  · rfl
  · exact opResult_eventAgrees (m := s.setInputs s.inputs.tail) (selects_decodeAt s.state b)

end Sys2Proof.Machine

/-! # The field packer and the pseudo-operations (30_encoding.md R66 to R68, R82, R83) -/

namespace Sys2Proof.Machine

/-! ## Packed values -/

/-- Addition is OR and the bits in both. -/
theorem or_add_and (x y : Nat) : (x ||| y) + (x &&& y) = x + y := by
  induction x using Nat.div2Induction generalizing y with
  | ind x ih =>
    rcases Nat.eq_zero_or_pos x with rfl | hx
    · simp
    · have hhalf := ih hx (y / 2)
      rw [← Nat.or_div_two, ← Nat.and_div_two] at hhalf
      have hor : (x ||| y) % 2 = 1 ↔ x % 2 = 1 ∨ y % 2 = 1 := Nat.or_mod_two_eq_one
      have hand : (x &&& y) % 2 = 1 ↔ x % 2 = 1 ∧ y % 2 = 1 := Nat.and_mod_two_eq_one
      omega

section
variable (h l : Byte)

/-- The value of a packed field. -/
theorem packLow_packHigh_toNat : (packLow (packHigh h) l).toNat = h.toNat * 64 ||| l.toNat := by
  rw [packLow_toNat, packHigh_toNat]

/-- The packed value fits 12 bits exactly when the high byte is at most `0x3F` (30_encoding.md R67). -/
theorem packLow_packHigh_lt_iff : (packLow (packHigh h) l).toNat < 0x1000 ↔ h.toNat ≤ 0x3F := by
  rw [packLow_packHigh_toNat]
  constructor
  · intro hlt
    have hle : h.toNat * 64 ≤ h.toNat * 64 ||| l.toNat := Nat.left_le_or
    omega
  · intro hle
    have hl := l.isLt
    exact Nat.or_lt_two_pow (n := 12) (by omega) (by omega)

/-- The bits the two bytes share in a packed field are bits 1 and 0 of the high one and 7 and 6 of the low one. -/
theorem packed_overlap_toNat : h.toNat * 64 &&& l.toNat = ((h &&& 0x03#8) &&& (l >>> 6)).toNat * 64 := by
  have hl := l.isLt
  have hlow : (h.toNat * 64 &&& l.toNat) % 2 ^ 6 = 0 := by
    rw [Nat.and_mod_two_pow, Nat.mul_mod_left, Nat.zero_and]
  have hhigh : (h.toNat * 64 &&& l.toNat) / 2 ^ 6 = h.toNat &&& l.toNat / 2 ^ 6 := by
    rw [Nat.and_div_two_pow, Nat.mul_div_cancel _ (by decide)]
  have htwo : 3 &&& l.toNat / 2 ^ 6 = l.toNat / 2 ^ 6 := by
    rw [Nat.and_comm]
    exact Nat.and_two_pow_sub_one_of_lt_two_pow (n := 2) (by omega)
  have hoverlap : ((h &&& 0x03#8) &&& (l >>> 6)).toNat = h.toNat &&& l.toNat / 2 ^ 6 := by
    rw [BitVec.toNat_and, BitVec.toNat_and, BitVec.toNat_ushiftRight, Nat.shiftRight_eq_div_pow, Nat.and_assoc]
    exact congrArg _ htwo
  omega

/-- The packed value is a sum exactly when the shared bits do not meet (30_encoding.md R68). -/
theorem packLow_packHigh_eq_add_iff :
    (packLow (packHigh h) l).toNat = h.toNat * 64 + l.toNat ↔ (h &&& 0x03#8) &&& (l >>> 6) = 0#8 := by
  have hsum := or_add_and (h.toNat * 64) l.toNat
  rw [packed_overlap_toNat] at hsum
  rw [packLow_packHigh_toNat, ← BitVec.toNat_inj, BitVec.toNat_ofNat, Nat.zero_mod]
  omega

/-- Bit `j` of a packed field: bit `j` of the low byte, or bit `j - 6` of the high byte. -/
theorem packLow_packHigh_getLsbD {j : Nat} (hj : j < 14) :
    (packLow (packHigh h) l).getLsbD j = (!decide (j < 6) && h.getLsbD (j - 6) || l.getLsbD j) := by
  simp [packLow, packHigh, zextField, fieldShift, hj]

/-- Bits 13 to 8 of a packed field are those of the high byte alone. -/
theorem packLow_packHigh_bits_high :
    (packLow (packHigh h) l).extractLsb' 8 6 = h.extractLsb' 2 6 := by
  ext i hi
  have hj : 8 + i - 6 = 2 + i := by omega
  simp [packLow_packHigh_getLsbD h l (show 8 + i < 14 by omega), hj]
  omega

/-- Bits 7 and 6 of a packed field are those of both bytes, combined by OR. -/
theorem packLow_packHigh_bits_middle :
    (packLow (packHigh h) l).extractLsb' 6 2 = h.extractLsb' 0 2 ||| l.extractLsb' 6 2 := by
  ext i hi
  simp [packLow_packHigh_getLsbD h l (show 6 + i < 14 by omega)]

/-- Bits 5 to 0 of a packed field are those of the low byte alone. -/
theorem packLow_packHigh_bits_low : (packLow (packHigh h) l).extractLsb' 0 6 = l.extractLsb' 0 6 := by
  ext i hi
  simp [packLow_packHigh_getLsbD h l (show i < 14 by omega), hi]

end

/-- Settles O21: the bound, the three groups of bits, and when OR is addition. -/
theorem packedFieldBits : Obligations.PackedFieldBits := fun h l =>
  ⟨packLow_packHigh_lt_iff h l, packLow_packHigh_bits_high h l, packLow_packHigh_bits_middle h l,
    packLow_packHigh_bits_low h l, packLow_packHigh_eq_add_iff h l⟩

/-- The two bytes of a 12-bit value pack to it: they share no bit. -/
theorem packLow_packHigh_split {a : Nat} (ha : a < 0x1000) :
    packLow (packHigh (BitVec.ofNat 8 (a >>> 6))) (BitVec.ofNat 8 (a &&& 0x3F)) = BitVec.ofNat 14 a := by
  have hlow : a &&& 0x3F = a % 64 := Nat.and_two_pow_sub_one_eq_mod a 6
  have hhigh : a >>> 6 = a / 64 := Nat.shiftRight_eq_div_pow a 6
  have hor : 64 * (a / 64) + a % 64 = 64 * (a / 64) ||| a % 64 :=
    Nat.two_pow_add_eq_or_of_lt (i := 6) (Nat.mod_lt a (by decide)) _
  apply BitVec.eq_of_toNat_eq
  rw [packLow_packHigh_toNat, hlow, hhigh, BitVec.toNat_ofNat, BitVec.toNat_ofNat, BitVec.toNat_ofNat,
    Nat.mod_eq_of_lt (by omega : a / 64 < 2 ^ 8), Nat.mod_eq_of_lt (by omega : a % 64 < 2 ^ 8), Nat.mul_comm, ← hor]
  omega

/-- A byte below `0x40` is a data byte. -/
theorem isData_ofNat_of_lt {n : Nat} (hn : n < 0x40) : isData (BitVec.ofNat 8 n) = true := by
  have hne (m : Byte) (hm : 0x40 ≤ m.toNat) : BitVec.ofNat 8 n ≠ m := by
    rintro rfl
    rw [BitVec.toNat_ofNat] at hm
    omega
  exact isData_iff.2 ⟨hne _ (by decide), hne _ (by decide)⟩

/-- The bytes of a 12-bit value are data bytes (30_encoding.md R82). -/
theorem isData_split {a : Nat} (ha : a < 0x1000) :
    isData (BitVec.ofNat 8 (a >>> 6)) = true ∧ isData (BitVec.ofNat 8 (a &&& 0x3F)) = true := by
  constructor
  · exact isData_ofNat_of_lt (by rw [Nat.shiftRight_eq_div_pow]; omega)
  · exact isData_ofNat_of_lt (Nat.lt_of_le_of_lt Nat.and_le_right (by decide))

/-! ## Streams of field bytes -/

/-- `FeedAll` feeds the byte that selects `i` and goes on. -/
theorem feedAll_cons_of_selects {s : State} {b : Byte} {i : Instr} (hsel : Selects s.state b i) (bs : List Byte) :
    feedAll s (b :: bs) = (feedAll (opResult i s) bs).map fun r => (r.1, (opResult i s).event.toList ++ r.2) := by
  rw [feedAll_cons_opResult, hsel.decodeAt_eq]

section
variable {s : State} {h l : Byte} (hh : isData h = true) (hl : isData l = true)
include hh hl

/-- The two bytes of an address field report it, with no byte masked, whatever `pending` held. -/
theorem feedAll_address (hs : s.state = codeExpectAddressHigh) :
    feedAll s [h, l] =
      some (opResult (.addrLo l) (opResult (.addrHi h) s), [.addressReady (packLow (packHigh h) l)]) := by
  rw [feedAll_cons_of_selects (.addrHi hh hs), feedAll_cons_of_selects (.addrLo hl rfl)]
  rfl

/-- The two bytes of a data field report it, with no byte masked, whatever `pending` held. -/
theorem feedAll_dataField (hs : s.state = codeExpectDataHigh) :
    feedAll s [h, l] =
      some (opResult (.dataLo l) (opResult (.dataHi h) s), [.dataReady (packLow (packHigh h) l)]) := by
  rw [feedAll_cons_of_selects (.dataHi hh hs), feedAll_cons_of_selects (.dataLo hl rfl)]
  rfl

end

/-- Settles O20: `feedAll_address` and `feedAll_dataField`. -/
theorem twoByteFieldPacking : Obligations.TwoByteFieldPacking := by
  intro s h l hhs hhe hls hle
  have hh : isData h = true := isData_iff.2 ⟨hhs, hhe⟩
  have hl : isData l = true := isData_iff.2 ⟨hls, hle⟩
  exact ⟨fun hs => ⟨_, feedAll_address hh hl hs⟩, fun hs => ⟨_, feedAll_dataField hh hl hs⟩⟩

/-- FIELDS from `ExpectAddressHigh` reports its three values and comes back there, with the counter it had. -/
theorem feedAll_fieldsBytes {s : State} {a d : Nat} {i : Byte} (ha : a < 0x1000) (hd : d < 0x1000)
    (hi : isData i = true) (hs : s.state = codeExpectAddressHigh) :
    ∃ t, feedAll s (fieldsBytes a i d) =
        some (t, [.addressReady (BitVec.ofNat 14 a), .instanceReady i, .dataReady (BitVec.ofNat 14 d)]) ∧
      t.state = codeExpectAddressHigh ∧ t.counter = s.counter := by
  obtain ⟨hah, hal⟩ := isData_split ha
  obtain ⟨hdh, hdl⟩ := isData_split hd
  have haddr := feedAll_address hah hal hs
  rw [packLow_packHigh_split ha] at haddr
  generalize hu : opResult (.addrLo _) (opResult (.addrHi _) s) = u at haddr
  have hinst : feedAll u [i] = some (opResult (.instanceOp i) u, [.instanceReady i]) := by
    rw [feedAll_cons_of_selects (.instanceOp hi (by rw [← hu]; rfl))]
    rfl
  have hdata := feedAll_dataField (s := opResult (.instanceOp i) u) hdh hdl rfl
  rw [packLow_packHigh_split hd] at hdata
  exact ⟨_, feedAll_append haddr (feedAll_append hinst hdata), rfl, by rw [← hu]; rfl⟩

/-- Settles O22: START, `feedAll_fieldsBytes`, END. -/
theorem frameAndFieldsRoundTrip : Obligations.FrameAndFieldsRoundTrip := by
  intro s a d i ha hd his hie
  have hi : isData i = true := isData_iff.2 ⟨his, hie⟩
  refine ⟨?_, feedAll_fieldsBytes ha hd hi⟩
  have hstart : feedAll s [startMarker] = some (opResult (.start s.state) s, [.frameStarted]) := by
    rw [feedAll_cons_of_selects (.start rfl)]
    rfl
  obtain ⟨t, hfields, -, hcount⟩ := feedAll_fieldsBytes (s := opResult (.start s.state) s) ha hd hi rfl
  have hend : feedAll t [endMarker] = some (opResult (.endFrame t.state) t, [.frameEnded (nextCount s.counter)]) := by
    rw [feedAll_cons_of_selects (.endFrame rfl), opResult_endFrame, hcount]
    rfl
  rw [← nextCount_eq_ofNat, ← nextCount_toNat]
  refine ⟨_, feedAll_append (feedAll_append hstart hfields) hend, rfl, rfl, ?_⟩
  rw [opResult_counter_of_END rfl, hcount]
  rfl

end Sys2Proof.Machine

/-! # The output ports (30_encoding.md R75 to R77) -/

namespace Sys2Proof.Machine

/-- A consumer reads back what the block drives: no payload is cut at its port. -/
theorem read_drive (e : Option Event) : (drive e).read = .ok e := by
  rcases e with _ | (_ | v | v | v | n | ⟨k, v⟩)
  case none | some.frameStarted | some.frameEnded => rfl
  case some.addressReady | some.dataReady | some.instanceReady | some.unexpectedByte =>
    simp [drive, kindCode, portValue, portState, OutPorts.read]

/-- The kind code of an event is neither that of no event nor the reserved one. -/
theorem kindCode_ne (e : Event) : kindCode e ≠ 0#3 ∧ kindCode e ≠ 7#3 := by
  cases e <;> simp [kindCode]

/-- Only `UnexpectedByte` shows a state. -/
theorem exists_unexpectedByte_of_portState_ne {e : Event} (h : portState e ≠ 0#3) : ∃ k v, e = .unexpectedByte k v := by
  cases e with
  | unexpectedByte k v => exact ⟨k, v, rfl⟩
  | _ => exact absurd rfl h

/-- Settles O28: the rows are those of the tables, and the rest is said of no event and of an event. -/
theorem portsCarryTheEvent : Obligations.PortsCarryTheEvent := by
  refine ⟨rfl, rfl, fun _ => rfl, fun _ => rfl, fun _ => rfl, fun _ => rfl, fun _ _ => rfl, fun _ => rfl, fun e => ?_⟩
  refine ⟨read_drive e, ?_⟩
  cases e with
  | none => exact ⟨by decide, by decide, fun h => absurd rfl h, fun _ => ⟨rfl, rfl⟩⟩
  | some e =>
    obtain ⟨hzero, hseven⟩ := kindCode_ne e
    refine ⟨hseven, ⟨fun _ => hzero, fun _ => rfl⟩, fun h => ?_, fun h => nomatch h⟩
    obtain ⟨k, v, rfl⟩ := exists_unexpectedByte_of_portState_ne h
    exact ⟨k, v, rfl⟩

/-- Settles O29: at each kind code the reading is one row of `OutPorts.read`. -/
theorem consumerFaultsExactlyOnReservedKind : Obligations.ConsumerFaultsExactlyOnReservedKind := by
  rintro ⟨valid, kind, value, state⟩
  rcases code_cases kind with rfl | rfl | rfl | rfl | rfl | rfl | rfl | rfl <;>
    simp [OutPorts.read, codeIdle, codeExpectAddressHigh, codeExpectAddressLow, codeExpectInstance,
      codeExpectDataHigh, codeExpectDataLow]

/-! # The renderer (30_encoding.md R84, R85) -/

/-- A line padded is the text and spaces to 20 columns, so that it begins with the text. -/
theorem padLine_spec (text : List Char) : padLine text = text ++ List.replicate (20 - text.length) ' ' ∧
    (padLine text).take text.length = text ∧ (padLine text).length = max 20 text.length := by
  have hpad : padLine text = text ++ List.replicate (20 - text.length) ' ' := rfl
  refine ⟨hpad, ?_, ?_⟩
  · rw [hpad, List.take_left]
  · rw [hpad, List.length_append, List.length_replicate]
    omega

/-- What the renderer's letter case does to a lower-case digit. -/
def letterCase : Config.HexCase → Char → Char
  | .lower => id
  | .upper => Char.toUpper

/-- A nibble's digit is that of `Nat.digitChar`, in the letter case. -/
theorem hexChar_eq (hexCase : Config.HexCase) (n : Nat) : hexChar hexCase n = letterCase hexCase n.digitChar := by
  cases hexCase <;> rfl

section
variable (p : Config.RenderParams) (b : Byte)

/-- Without filling, the hexadecimal number is the base 16 digits of the byte, in the letter case. -/
theorem renderHex_of_hexPad_none (hp : p.hexPad = none) :
    renderHex p b = (Nat.toDigits 16 b.toNat).map (letterCase p.hexCase) := by
  have hb := b.isLt
  rw [Nat.toDigits_eq_if (by decide)]
  split
  next hlt =>
    have hhigh : b.toNat / 16 = 0 := by omega
    have hlow : b.toNat % 16 = b.toNat := by omega
    simp [renderHex, hp, hexChar_eq, hhigh, hlow]
  next hge =>
    have hhigh : b.toNat / 16 ≠ 0 := by omega
    rw [Nat.toDigits_of_lt_base (by omega)]
    simp [renderHex, hp, hexChar_eq, hhigh]

/-- Without filling, the hexadecimal number is as long as the base 16 digits of the byte. -/
theorem renderHex_length_of_hexPad_none :
    (renderHex { p with hexPad := none } b).length = (Nat.toDigits 16 b.toNat).length := by
  rw [renderHex_of_hexPad_none _ b rfl, List.length_map]

/-- A filling character fills the hexadecimal number on the left to three places. -/
theorem renderHex_of_hexPad_some {c : Char} (hp : p.hexPad = some c) :
    renderHex p b = List.replicate (3 - (Nat.toDigits 16 b.toNat).length) c ++
      renderHex { p with hexPad := none } b := by
  rw [← renderHex_length_of_hexPad_none p b]
  simp only [renderHex, hp]

/-- With a filling character the hexadecimal number has three places: a byte has at most two digits. -/
theorem renderHex_length_of_hexPad_some {c : Char} (hp : p.hexPad = some c) : (renderHex p b).length = 3 := by
  have hdigits : (Nat.toDigits 16 b.toNat).length ≤ 2 :=
    (Nat.length_toDigits_le_iff (by decide) (by decide)).2 b.isLt
  rw [renderHex_of_hexPad_some p b hp, List.length_append, List.length_replicate, renderHex_length_of_hexPad_none]
  omega

end

/-- Settles O30: `padLine_spec`, the hexadecimal number by its filling and its letter case, and the rows of
`renderEvent`. -/
theorem renderedLinesOfEvents : Obligations.RenderedLinesOfEvents := by
  refine ⟨fun text => ?_, fun _ _ => rfl, fun p b => ⟨fun hp hc => ?_, fun hp hc => ?_, fun c hp => ?_⟩,
    fun p v b n k => ⟨rfl, rfl, rfl, rfl, rfl, rfl⟩⟩
  · obtain ⟨hpad, htake, hlen⟩ := padLine_spec text
    exact ⟨hpad, htake, hlen, rfl, rfl⟩
  · rw [renderHex_of_hexPad_none p b hp, hc]
    exact List.map_id _
  · rw [renderHex_of_hexPad_none p b hp, hc]
    rfl
  · exact ⟨renderHex_of_hexPad_some p b hp, renderHex_length_of_hexPad_some p b hp⟩

end Sys2Proof.Machine

/-! # The marker operations (40_markers.md)

The operand of a marker is the state code it arrives in; the state it answers (`opResult_start`, `opResult_endFrame`)
does not depend on it, so both statements hold for every operand in every state. -/

namespace Sys2Proof.Machine

/-- Settles O11: the fields of the state START answers (`opResult_start`). -/
theorem startOperationResult : Obligations.StartOperationResult := by
  intro k s
  refine ⟨opResult (.start k) s, exec_eq_next _ s, ?_⟩
  simp [codeExpectAddressHigh]

/-- Settles O12: the fields of the state END answers (`opResult_endFrame`), whose counter wraps by `nextCount_toNat`. -/
theorem endOperationResult : Obligations.EndOperationResult := by
  intro k s
  refine ⟨opResult (.endFrame k) s, exec_eq_next _ s, ?_, ?_⟩
  · exact nextCount_toNat s.counter
  · simp [codeIdle]

end Sys2Proof.Machine

/-! # The field operations (41_field_packer.md)

The three encodings are `decode_encode_iff`. The effects are read off the state each operation answers: the two high
bytes share `State.loadHighByte` and the value `packHigh`, the two low bytes the value `packLow`. They hold for every
operand in every state, as the pseudocode has no guard. -/

namespace Sys2Proof

/-- The word of an operation decodes to it exactly when it is well formed: nothing else is ever decoded. -/
theorem decode_encode_iff (i : Instr) : decode (encode i) = i ↔ i.wellFormed = true := by
  constructor
  · intro h
    have hsel := selects_decodeAt (encode i).code (encode i).byte
    obtain ⟨hwf, -, -⟩ := hsel.fields
    rwa [← decode, h] at hwf
  · exact decode_encode i

end Sys2Proof

namespace Sys2Proof.Machine

/-- A high byte from `0x41` on sets a bit above the low 12 (30_encoding.md R67). -/
theorem packHigh_toNat_ge {b : Byte} (hb : 0x41 ≤ b.toNat) : 0x1000 ≤ (packHigh b).toNat := by
  rw [packHigh_toNat]
  omega

/-- Settles O13: `decode_encode_iff` at ADDR_HI, and the fields of `State.loadHighByte`. -/
theorem addressHighByteResult : Obligations.AddressHighByteResult := by
  refine ⟨fun b => (decode_encode_iff (.addrHi b)).trans isData_iff, fun b s => ?_⟩
  exact ⟨opResult (.addrHi b) s, exec_eq_next _ s, rfl, packHigh_toNat b, packHigh_toNat_ge, rfl, rfl, rfl, rfl⟩

/-- Settles O14: the event carries `packLow` of the accumulator and the byte. -/
theorem addressLowByteResult : Obligations.AddressLowByteResult := by
  intro b s
  have hevent : (opResult (.addrLo b) s).event = some (.addressReady (packLow s.pending b)) := rfl
  exact ⟨opResult (.addrLo b) s, exec_eq_next _ s, ⟨_, hevent, packLow_toNat b s.pending⟩, rfl, rfl, rfl, rfl⟩

/-- Settles O15: `decode_encode_iff` at INSTANCE, the two marker rows, and the fields of the state INSTANCE answers. -/
theorem instanceByteResult : Obligations.InstanceByteResult := by
  refine ⟨fun b => (decode_encode_iff (.instanceOp b)).trans isData_iff, ?_, ?_, fun b s => ?_⟩
  · exact decode_encode (.endFrame codeExpectInstance) rfl
  · exact decode_encode (.start codeExpectInstance) rfl
  · exact ⟨opResult (.instanceOp b) s, exec_eq_next _ s, rfl, rfl, rfl, rfl, rfl⟩

/-- Settles O16: `decode_encode_iff` at DATA_HI, and the fields of `State.loadHighByte`. -/
theorem dataHighByteResult : Obligations.DataHighByteResult := by
  refine ⟨fun b => (decode_encode_iff (.dataHi b)).trans isData_iff, fun b s => ?_⟩
  exact ⟨opResult (.dataHi b) s, exec_eq_next _ s, rfl, packHigh_toNat b, packHigh_toNat_ge, rfl, rfl, rfl, rfl⟩

/-- Settles O17: the event carries `packLow` of the accumulator and the byte. -/
theorem dataLowByteResult : Obligations.DataLowByteResult := by
  intro b s
  have hevent : (opResult (.dataLo b) s).event = some (.dataReady (packLow s.pending b)) := rfl
  exact ⟨opResult (.dataLo b) s, exec_eq_next _ s, ⟨_, hevent, packLow_toNat b s.pending⟩, rfl, rfl, rfl, rfl⟩

end Sys2Proof.Machine

/-! # The unexpected-byte operations (42_unexpected.md)

Both answer the state they found with a report in its event, so the frame is that of `State.emit`. The report of
DEFAULT carries the code in the state register, whatever its operand. -/

namespace Sys2Proof.Machine

/-- With `IDLE_REPORTS = false`, a data byte in `Idle` is dropped (42_unexpected.md R93). -/
theorem State.idleByte_not_reporting (m : State) (b : Byte) : m.idleByte false b = m.silent := rfl

/-- Settles O18: the fields of the state IDLE_DATA answers (`opResult_idleData`), and the reading that drops the
byte. -/
theorem idleDataByteResult : Obligations.IdleDataByteResult := by
  constructor
  · intro b s
    refine ⟨opResult (.idleData b) s, exec_eq_next _ s, ?_⟩
    simp [codeIdle]
  · intro b s
    exact s.idleByte_not_reporting b

/-- Settles O19: the fields of the state DEFAULT answers (`opResult_defaultOp`). -/
theorem defaultByteResult : Obligations.DefaultByteResult := by
  intro k b s
  refine ⟨opResult (.defaultOp k b) s, exec_eq_next _ s, ?_⟩
  simp

end Sys2Proof.Machine

/-! # No exception and no stop (60_exceptions.md R95, R111) -/

namespace Sys2Proof.Machine

/-- A step completes, or it is refused in a cycle without reset in which two or more producers feed: there is no
third outcome. -/
theorem step_next_or_refused (s : State) : (∃ t, step s = .next t) ∨
    step s = .refused .concurrentFeed ∧ ∃ c rest, s.inputs = c :: rest ∧ c.rst = false ∧ 2 ≤ c.offers.length := by
  rcases inputCycle_cases s.inputs with hi | ⟨c, rest, hi, hr | ⟨hr, ho | ⟨b, ho⟩ | ho⟩⟩
  · exact .inl ⟨_, step_of_inputs_nil hi⟩
  · exact .inl ⟨_, step_of_rst hi hr⟩
  · exact .inl ⟨_, step_of_offers_nil hi hr ho⟩
  · exact .inl ⟨_, step_of_offers_singleton hi hr ho⟩
  · exact .inr ⟨step_of_two_offers hi hr ho, c, rest, hi, hr, ho⟩

/-- No step raises a fault. -/
theorem step_ne_fault (s : State) (f : Fault) : step s ≠ .fault f := by
  rcases step_next_or_refused s with ⟨t, ht⟩ | ⟨hrefused, -⟩
  · simp [ht]
  · simp [hrefused]

/-- While the host keeps its duty in every listed cycle, a step completes. -/
theorem State.Lawful.step_completes {s : State} (h : s.Lawful) : ∃ t, step s = .next t := by
  rcases step_next_or_refused s with hnext | ⟨-, c, rest, hi, hr, ho⟩
  · exact hnext
  · have hc : c.rst = true ∨ c.offers.length ≤ 1 := h c (by simp [hi])
    rcases hc with hrst | hone
    · simp [hr] at hrst
    · omega

/-- A step only uses up a listed cycle, so the host's duty in the later ones stands. -/
theorem State.Lawful.of_step {s t : State} (h : s.Lawful) (hstep : step s = .next t) : t.Lawful := by
  intro c hc
  rw [step_inputs hstep] at hc
  exact h c (List.mem_of_mem_tail hc)

/-- Settles O38, by induction on the number of steps: a lawful state steps to a lawful one. -/
theorem lawfulRunsNeverStop : Obligations.LawfulRunsNeverStop := by
  intro k
  induction k with
  | zero => exact fun s h => ⟨s, rfl, h⟩
  | succ k ih =>
    intro s h
    obtain ⟨t, hstep⟩ := h.step_completes
    rw [core_run_succ k hstep]
    exact ih t (h.of_step hstep)

/-- Settles O37: `exec_eq_next`, `step_of_offers_singleton` and `step_ne_fault`. -/
theorem everyByteCompletesWithoutException : Obligations.EveryByteCompletesWithoutException :=
  ⟨fun i s => ⟨_, exec_eq_next i s⟩, fun _ _ _ _ hi hr ho => ⟨_, step_of_offers_singleton hi hr ho⟩, step_ne_fault⟩

end Sys2Proof.Machine

/-! # Reset and hazards (70_reset_and_hazards.md R113 to R115, R120, R124) -/

namespace Sys2Proof.Machine

/-- `FeedAll` completes over every stream, and depends on the registers alone: machines with the same ones emit the
same events and end with the same registers. -/
theorem feedAll_congr_regs {s t : State} (h : s.regs = t.regs) (bs : List Byte) :
    ∃ u v evs, feedAll s bs = some (u, evs) ∧ feedAll t bs = some (v, evs) ∧ u.regs = v.regs := by
  induction bs generalizing s t with
  | nil => exact ⟨s, t, [], rfl, rfl, h⟩
  | cons b bs ih =>
    obtain ⟨hregs, hevent⟩ := opResult_congr_regs h b
    obtain ⟨u, v, evs, hs, ht, huv⟩ := ih hregs
    refine ⟨u, v, (opResult (decodeAt s.state b) s).event.toList ++ evs, ?_, ?_, huv⟩
    · rw [feedAll_cons_opResult, hs]
      rfl
    · rw [feedAll_cons_opResult, ht, hevent]
      rfl

/-- START writes every register but the counter, so the counter alone fixes the registers after it
(40_markers.md R86). -/
theorem opResult_start_regs (c : StateCode) (m : State) :
    (opResult (.start c) m).regs = ⟨codeExpectAddressHigh, 0#14, m.counter⟩ := rfl

/-- Settles O44: both machines emit `FrameStarted` and leave the registers of `opResult_start_regs`, which agree; the
rest of the stream is `feedAll_congr_regs`. -/
theorem startResynchronises : Obligations.StartResynchronises := by
  intro s t bs hcounter
  have hregs : (opResult (.start s.state) s).regs = (opResult (.start t.state) t).regs := by
    rw [opResult_start_regs, opResult_start_regs, hcounter]
  obtain ⟨u, v, evs, hs, ht, huv⟩ := feedAll_congr_regs hregs bs
  have hfeed {m w : State} (hm : feedAll (opResult (.start m.state) m) bs = some (w, evs)) :
      feedAll m (startMarker :: bs) = some (w, .frameStarted :: evs) := by
    rw [feedAll_cons_opResult, decodeAt_startMarker, hm]
    rfl
  exact ⟨u, v, .frameStarted :: evs, hfeed hs, hfeed ht, huv⟩

/-- Settles O36: by `step_next_or_refused` a step that does not complete is in such a cycle, and by
`step_of_two_offers` such a cycle is refused. -/
theorem concurrentFeedingIsRefused : Obligations.ConcurrentFeedingIsRefused := by
  intro s
  constructor
  · intro hrefused
    rcases step_next_or_refused s with ⟨t, hnext⟩ | ⟨-, hcycle⟩
    · simp [hnext] at hrefused
    · exact hcycle
  · rintro ⟨c, rest, hi, hr, ho⟩
    exact step_of_two_offers hi hr ho

/-- Settles O31: `step_of_rst`, which asks nothing of what the producers drive. -/
theorem resetCycleWinsOverBytes : Obligations.ResetCycleWinsOverBytes :=
  fun _ _ _ hi hr => step_of_rst hi hr

end Sys2Proof.Machine
